-- ==== Sys2Proof/Word.lean ====
section
/-! DEFINITION. The words of the block: the 16-bit command word (spec R80), the 16-bit DAC frame word (R70), and the
small index types. Nothing else in the block is a bit pattern: millivolts, rates, steps and times are integers (R12). -/

namespace Sys2Proof

/-- A 16-bit command word, `OP[15:12] SEL[11:10] CH[9:8] Z[7:0]` (R80). -/
abbrev CommandWord := BitVec 16

/-- A DAC frame read as the 16-bit integer `word(f)`, whose bit `15 - i` is the frame bit `f(i)` (R13, R70). -/
abbrev FrameWord := BitVec 16

/-- A two-bit `SEL` code: the gate code of TICK (R82), the stage-select code of SET_RATE and SET_STEP (R83). -/
abbrev SelCode := BitVec 2

/-- A logical output channel: "one of up to 4" (R10, R84). Which of the four exist is the parameter `NCH`. -/
abbrev Channel := Fin 4

/-- A DAC chip index; `NCHIP` is 2 (R10). -/
abbrev Chip := Fin 2

end Sys2Proof
end

