-- ==== Sys2Proof/Config.lean ====
section
/-! DEFINITION. What an implementation fixes (the parameters of spec R10) and the one free value, the host timer's
readings beyond those listed with an input (R100). -/

namespace Sys2Proof

/-- The sub-channel of a DAC chip (R10, R72). -/
inductive SubChannel where
  | A
  | B
deriving DecidableEq, Repr

/-- Where a logical channel is wired: a chip and one of its sub-channels (R10, R211). -/
structure Route where
  chip : Chip
  sub : SubChannel
deriving DecidableEq, Repr

/-- One value for each of the four logical channels. -/
structure PerChannel (α : Type) where
  ch0 : α
  ch1 : α
  ch2 : α
  ch3 : α
deriving DecidableEq, Repr

/-- One value for each of the two DAC chips. -/
structure PerChip (α : Type) where
  chip0 : α
  chip1 : α
deriving DecidableEq, Repr

/-- The Clock's resolution (R10, R103). No rule computes with it: rates and readings are in the same unit. -/
inductive ClockUnit where
  | coarse
  | fine
deriving DecidableEq, Repr

/-- The width in bits of the host timer counter, at least 1 (R10). -/
abbrev TimerWidth := { n : Nat // 1 ≤ n }

/-- The implementation parameters of R10, "fixed for a launch". DESIGN CHOICE (log 1, safe): they are held as data, so
every statement about the machine holds for every value of them. -/
structure Params where
  /-- `NCH`, the number of logical channels; a configuration needs 1..4 (R261(d)). -/
  nch : Nat
  /-- `chanMap`, logical channel to chip and sub-channel. -/
  chanMap : PerChannel Route
  /-- The logical channel the driver writes the envelope to. -/
  envChannel : Channel
  /-- Chip k's latch pin is configured, not the "unused" sentinel. -/
  latchPresent : PerChip Bool
  /-- The Clock's resolution. -/
  clockUnit : ClockUnit
  /-- `W_T`, the width in bits of the host timer counter. -/
  wT : TimerWidth
  /-- `tSettle`, the minimum settle delay in host time; the model measures no time (R195, R278). -/
  tSettle : Nat
  /-- `W_V`, the width in bits a realisation uses for mV values and intermediates. Every operation computes in exact
  integers (R12, D1) and none reads it; what R10 asks of it is `Safety.WidthHolds` (log 17, log 23). -/
  wV : Nat
deriving DecidableEq, Repr

/-- The parameters of `State.reset`. `NCH` and `chanMap` are the defaults of R10. DESIGN CHOICE (log 9, unsafe): the
spec leaves the others open; these are the values its test vectors use, and for `clockUnit`, `tSettle` and `W_V`, which
they do not name, the model's. -/
def Params.default : Params where
  nch := 4
  chanMap := ⟨⟨0, .A⟩, ⟨0, .B⟩, ⟨1, .A⟩, ⟨1, .B⟩⟩
  envChannel := 0
  latchPresent := ⟨true, false⟩
  clockUnit := .coarse
  wT := ⟨32, by decide⟩
  tSettle := 0
  wV := 32

/-- The free value of the model: the timer reading the host supplies at a `Sample()` for which the running input lists
none (R100: "the model puts no constraint on readings"). It has no body that a proof can see (log 3, safe). -/
opaque Config.freeReading : Nat → Nat

end Sys2Proof
end

