-- ==== Sys2Proof/Syntax.lean ====
section
/-! DEFINITION. The operations of the block (spec R81, one constructor per row of opcode_table.json, operands as in the
assembler form of R88), the packet a command arrives in (R80) and the fields of a DAC frame (R71). -/

namespace Sys2Proof

/-- A command as the host sends it: the command word and the two operand inputs beside it (R80). An operand input that
an operation does not use is ignored. DESIGN CHOICE (log 14): an input not given reads 0. -/
structure Packet where
  word : CommandWord
  arg : Int := 0
  frame : FrameWord := 0
deriving DecidableEq, Repr

/-- The twelve operations. -/
inductive Instr where
  /-- CLK_RESET, R101. -/
  | clkReset
  /-- CLK_ELAPSED, R102. -/
  | clkElapsed
  /-- GATE_ON, R120. -/
  | gateOn
  /-- GATE_OFF, R121. -/
  | gateOff
  /-- ADVANCE, R122. -/
  | advance
  /-- DAC_ENCODE c, v: R170. -/
  | dacEncode (c : Channel) (v : Int)
  /-- DAC_TRANSMIT k, w: R190. -/
  | dacTransmit (k : Chip) (w : FrameWord)
  /-- DAC_WRITE c, v: R210. -/
  | dacWrite (c : Channel) (v : Int)
  /-- TICK g: R212. -/
  | tick (g : SelCode)
  /-- SET_RATE sel, r: R140. -/
  | setRate (sel : SelCode) (r : Int)
  /-- SET_STEP sel, p: R141. -/
  | setStep (sel : SelCode) (p : Int)
  /-- READ_ENV, R142. -/
  | readEnv
deriving DecidableEq, Repr

/-- The reasons a command is refused (R234). The sixth reason of R234, `InvalidConfiguration`, belongs to configuration
and is `Machine.Refusal.invalidConfiguration`. -/
inductive Reason where
  /-- `OP` is 0x0, 0xD, 0xE or 0xF (decoder). -/
  | reservedOpcode
  /-- A nonzero bit in a field the operation does not use (decoder). -/
  | reservedField
  /-- `SEL = 11` (TICK, SET_RATE, SET_STEP). -/
  | reservedCode
  /-- `CH ≥ NCH` (DAC_ENCODE, DAC_WRITE). -/
  | channelOutOfRange
  /-- A negative step (SET_STEP). -/
  | illegalOperand
deriving DecidableEq, Repr

/-- The fields of a DAC frame, in wire order (R71). -/
structure DacFrame where
  /-- `f(0)`: sub-channel B. -/
  channelSelect : Bool
  /-- `f(1)`, which the source does not define (R76). -/
  bit1 : Bool
  /-- `f(2)`, inverted: `false` = 2× gain enabled (R73). -/
  gainDisable : Bool
  /-- `f(3)` (R74). -/
  powerOn : Bool
  /-- `f(4)..f(15)`, most significant bit first (R75). -/
  field : BitVec 12
deriving DecidableEq, Repr

end Sys2Proof
end

