-- ==== Sys2Proof/Machine/State.lean ====
section
/-! DEFINITION. Everything the spec gives the block (10_state.md R20–R35), the parameters it runs under (R10), and the
model's own fields that carry the host's side (its inputs, its timer readings, the last result). All plain data. -/

namespace Sys2Proof.Machine

/-- The envelope's stage (R22). -/
inductive Stage where
  | idle
  | attack
  | decay
  | sustain
  | release
deriving DecidableEq, Repr

/-- A stage that has a rate and a step (R16): the indices A, D and R. -/
inductive TimedStage where
  | A
  | D
  | R
deriving DecidableEq, Repr

/-- One value for each of the stages A, D and R (R20). -/
structure PerStage (α : Type) where
  attack : α
  decay : α
  release : α
deriving DecidableEq, Repr

/-- The gate event of a tick (R82). -/
inductive Gate where
  | none
  | rose
  | fell
deriving DecidableEq, Repr

/-- An output line of a DAC chip (R27). -/
inductive Line where
  | cs
  | clk
  | data
  | latch
deriving DecidableEq, Repr

/-- The levels last driven on a chip's lines (R27); `true` is 1. -/
structure Pins where
  cs : Bool
  clk : Bool
  data : Bool
  latch : Bool
deriving DecidableEq, Repr

/-- An output event (R31). -/
inductive Event where
  | pin (k : Chip) (line : Line) (level : Bool)
  | settle (k : Chip)
deriving DecidableEq, Repr

/-- What an operation hands back (R90), or the reason it was refused (R234, R235). -/
inductive Result where
  /-- The operation returns nothing. -/
  | none
  /-- CLK_ELAPSED. -/
  | elapsed (n : Nat)
  /-- DAC_ENCODE: the frame word and whether a transmission is needed. -/
  | encoded (word : FrameWord) (changed : Bool)
  /-- READ_ENV: stage code, value, easing, and the percent view as an exact rational. -/
  | envelope (code : BitVec 3) (value : Int) (easing : Bool) (percent : Rat)
  /-- The command was refused. -/
  | refused (reason : Reason)
deriving DecidableEq, Repr

/-- What the host supplies at a configuration (R260): the limits, the sustain level, the steps, the rates it gives (a
missing one is `none`), and the parameters. Steps are integers here, so that a negative one can be refused (R261(c)). -/
structure Configuration where
  minLimit : Int
  maxLimit : Int
  sustainLevel : Int
  rate : PerStage (Option Int)
  step : PerStage Int
  par : Params
deriving DecidableEq, Repr

/-- One input of the host (R216, R217), with the timer readings it supplies for it. -/
inductive HostInput where
  | configure (cfg : Configuration) (readings : List Nat)
  | command (p : Packet) (readings : List Nat)
deriving DecidableEq, Repr

/-- The block raises no exception and no operation traps (R230, R238): no fault exists, so this type is empty. -/
inductive Fault where
deriving DecidableEq, Repr

/-- Why a step has no next state. A command the spec calls refused is none of these: it has a next state (R234). -/
inductive Refusal where
  /-- Raised by an arm of `exec` whose instruction has no meaning yet; no arm raises it. Safe. -/
  | notModelled (mnemonic : String)
  /-- Raised by a configuration that fails CHECK_CONFIG: "a refused configuration leaves no state defined. The model
  has no run from it" (R261). Safe. -/
  | invalidConfiguration
deriving DecidableEq, Repr

/-- The state of the block (R20–R31), its parameters, and the model's own fields. -/
structure State where
  /-- `S.min_limit`, mV (R20). -/
  minLimit : Int
  /-- `S.max_limit`, mV (R20). -/
  maxLimit : Int
  /-- `S.sustain_level`, mV (R20). -/
  sustainLevel : Int
  /-- `S.rate[s]`, clock units; negative is the unset sentinel (R20). -/
  rate : PerStage Int
  /-- `S.step[s]`, percent of range (R20). -/
  step : PerStage Nat
  /-- `S.stage` (R22). -/
  stage : Stage
  /-- `S.current_value`, mV (R23). -/
  currentValue : Int
  /-- `S.easing` (R24). -/
  easing : Bool
  /-- `S.t0`, a `u{W_T}` (R25). -/
  t0 : Nat
  /-- `S.last[c]`; `none` is EMPTY (R26). Entries of channels that do not exist stay `none` (log 15). -/
  last : PerChannel (Option Nat)
  /-- `S.pin[k]` (R27). -/
  pin : PerChip Pins
  /-- `S.refused` (R29). -/
  refused : Bool
  /-- `S.trace`, oldest event first (R31). -/
  trace : List Event
  /-- The parameters of R10; only a configuration writes them (log 1). -/
  par : Params
  /-- The model's own: the host's inputs not yet taken, next first (R217, log 2). -/
  inbox : List HostInput
  /-- The model's own: the timer readings supplied for the running input and not yet taken (R100, log 3). -/
  readings : List Nat
  /-- The model's own: how many free readings were drawn (R100, log 3). -/
  draws : Nat
  /-- The model's own output port: the last operation's result (R30, R90, log 5). -/
  result : Result
deriving DecidableEq, Repr

/-- The levels configuration finds the lines at (R35, R260): CS = 1, CLK = 0, DATA = 0, LATCH = 1. -/
def Pins.rest : Pins := ⟨true, false, false, true⟩

/-- The configuration `State.reset` stands for. DESIGN CHOICE (log 8, unsafe): configuration values are the host's, so
the model names some: those of the spec's test vectors, with no rate given. -/
def Configuration.default : Configuration where
  minLimit := 0
  maxLimit := 4000
  sustainLevel := 1000
  rate := ⟨none, none, none⟩
  step := ⟨25, 25, 25⟩
  par := Params.default

/-- The block right after configuration with `Configuration.default` (R35), by a host whose first timer reading is 0.
DESIGN CHOICE (log 10, unsafe): that reading is open. No command is waiting. -/
def State.reset : State where
  minLimit := 0
  maxLimit := 4000
  sustainLevel := 1000
  rate := ⟨-1, -1, -1⟩
  step := ⟨25, 25, 25⟩
  stage := .idle
  currentValue := 0
  easing := false
  t0 := 0
  last := ⟨none, none, none, none⟩
  pin := ⟨Pins.rest, Pins.rest⟩
  refused := false
  trace := []
  par := Params.default
  inbox := []
  readings := []
  draws := 0
  result := .none

end Sys2Proof.Machine
end

