-- ==== Sys2Proof/Machine/Ops.lean ====
section
/-! DEFINITION. The named operations over the state: the indexed registers, the primitives of spec R15 (`Sample`,
`PinWrite`, `Settle`, `refuse`, `return`), the arithmetic of R12, and the numbers the source states (R9). The block
has no exceptions, so taking one is no operation here (R230, R238); `State.refuse` is the nearest thing to it. -/

namespace Sys2Proof.Machine

/-! ### Numbers the source states; UNVERIFIED by the requester (R9, I4, log 20) -/

/-- The easing ramp's step, percent of range (R124). -/
def easePct : Nat := 15

/-- The codec's upper clamp, mV (R171). -/
def vMax : Int := 4095

/-- Above this value, in mV, the codec enables 2× gain (R172). -/
def gainThreshold : Nat := 2048

/-! ### Indexed registers -/

/-- Read the entry of channel `c`. -/
def perChannelGet {α : Type} (f : PerChannel α) (c : Channel) : α :=
  match c with
  | 0 => f.ch0
  | 1 => f.ch1
  | 2 => f.ch2
  | 3 => f.ch3

/-- Write the entry of channel `c`. -/
def perChannelSet {α : Type} (f : PerChannel α) (c : Channel) (a : α) : PerChannel α :=
  match c with
  | 0 => { f with ch0 := a }
  | 1 => { f with ch1 := a }
  | 2 => { f with ch2 := a }
  | 3 => { f with ch3 := a }

/-- Read the entry of chip `k`. -/
def perChipGet {α : Type} (f : PerChip α) (k : Chip) : α :=
  match k with
  | 0 => f.chip0
  | 1 => f.chip1

/-- Write the entry of chip `k`. -/
def perChipSet {α : Type} (f : PerChip α) (k : Chip) (a : α) : PerChip α :=
  match k with
  | 0 => { f with chip0 := a }
  | 1 => { f with chip1 := a }

/-- Read the entry of stage index `g`. -/
def perStageGet {α : Type} (f : PerStage α) (g : TimedStage) : α :=
  match g with
  | .A => f.attack
  | .D => f.decay
  | .R => f.release

/-- Write the entry of stage index `g`. -/
def perStageSet {α : Type} (f : PerStage α) (g : TimedStage) (a : α) : PerStage α :=
  match g with
  | .A => { f with attack := a }
  | .D => { f with decay := a }
  | .R => { f with release := a }

/-- The level of one line. -/
def pinsGet (p : Pins) (line : Line) : Bool :=
  match line with
  | .cs => p.cs
  | .clk => p.clk
  | .data => p.data
  | .latch => p.latch

/-- Drive one line. -/
def pinsSet (p : Pins) (line : Line) (level : Bool) : Pins :=
  match line with
  | .cs => { p with cs := level }
  | .clk => { p with clk := level }
  | .data => { p with data := level }
  | .latch => { p with latch := level }

/-! ### Arithmetic (R12) -/

/-- `clamp(x, lo, hi) = min(max(x, lo), hi)`. -/
def clamp (x lo hi : Int) : Int := min (max x lo) hi

/-- `range = S.max_limit - S.min_limit`. -/
def State.range (s : State) : Int := s.maxLimit - s.minLimit

/-- `pct(p) = (p × range) div 100`, floor division. -/
def State.pct (s : State) (p : Nat) : Int := (p * s.range) / 100

/-! ### Primitives (R15) -/

/-- The reading the next `Sample()` returns: the next one listed with the running input, else a free value; a
`u{W_T}`, so taken modulo `2 ^ W_T` (R100, log 3, log 4). -/
def State.reading (s : State) : Nat :=
  (match s.readings with
    | r :: _ => r
    | [] => Config.freeReading s.draws) % 2 ^ s.par.wT.val

/-- The state after a `Sample()`: that reading is used up, and "each call takes a fresh reading" (R15). -/
def State.drawn (s : State) : State :=
  match s.readings with
  | _ :: rs => { s with readings := rs }
  | [] => { s with draws := s.draws + 1 }

/-- What an event does to the lines: `PinWrite(k, line, level)` sets that level, `Settle(k)` none (R15). -/
def applyEvent (pin : PerChip Pins) (e : Event) : PerChip Pins :=
  match e with
  | .pin k line level => perChipSet pin k (pinsSet (perChipGet pin k) line level)
  | .settle _ => pin

/-- A sequence of `PinWrite` and `Settle` primitives, in order: each appends its event to the trace, and each
`PinWrite` sets its line's level (R15, R31). The model measures no time at a `Settle` (R195, log 17). -/
def State.perform (s : State) (events : List Event) : State :=
  { s with trace := s.trace ++ events, pin := events.foldl applyEvent s.pin }

/-- `return v` (R15): the result an operation hands back. -/
def State.returning (s : State) (r : Result) : State := { s with result := r }

/-- `refuse <Reason>` (R15, R234): no change but `S.refused <- true`; the reason is reported as the result. DEDUCED
(log 6, safe): a refused command has a next state, since the block goes on with the next command (95 P3). -/
def State.refuse (s : State) (r : Reason) : State := { s with refused := true, result := .refused r }

end Sys2Proof.Machine
end

