-- ==== Sys2Proof/Machine/Operands.lean ====
section
/-! DEFINITION. Operand forms: the gate code, the stage-select code, the stage read-back code, and a logical channel's
route (spec R22, R82–R84, R211). -/

namespace Sys2Proof.Machine

/-- The gate code of TICK: 00 none, 01 rose, 10 fell, 11 reserved (R82). -/
def gateOfSel (g : SelCode) : Option Gate :=
  match g.toNat with
  | 0 => some .none
  | 1 => some .rose
  | 2 => some .fell
  | _ => none

/-- The stage-select code of SET_RATE and SET_STEP: 00 A, 01 D, 10 R, 11 reserved (R83). -/
def stageOfSel (sel : SelCode) : Option TimedStage :=
  match sel.toNat with
  | 0 => some .A
  | 1 => some .D
  | 2 => some .R
  | _ => none

/-- The read-back code of a stage, 0 to 4 (R22). -/
def stageCode : Stage → BitVec 3
  | .idle => 0
  | .attack => 1
  | .decay => 2
  | .sustain => 3
  | .release => 4

/-- `chanMap(c)` (R10, R211). -/
def State.route (s : State) (c : Channel) : Route := perChannelGet s.par.chanMap c

/-- `c < NCH` (R84). -/
def State.hasChannel (s : State) (c : Channel) : Bool := decide (c.val < s.par.nch)

end Sys2Proof.Machine
end

