-- ==== Sys2Proof/Machine/Flags.lean ====
section
/-! DEFINITION. The state bits and results that act as flags (spec R17): `S.easing`, the codec result `changed`, and
the frame's control bits. `S.refused` is set by `State.refuse` alone. -/

namespace Sys2Proof.Machine

/-- `S.easing` after GATE_ON: set above the minimum, never cleared (R120). -/
def easingAfterGateOn (s : State) : Bool := s.easing || decide (s.minLimit < s.currentValue)

/-- Whether an eased value has reached the minimum: at or below it after the subtraction (R124). -/
def easeReached (s : State) (v : Int) : Bool := decide (v ≤ s.minLimit)

/-- `changed`: the magnitude differs from the one last sent; EMPTY equals no magnitude (R174). -/
def changedFlag (entry : Option Nat) (m : Nat) : Bool := entry != some m

/-- The gain-disable bit: 0, that is 2× gain, exactly above the threshold (R73). -/
def gainDisableBit (v : Nat) : Bool := !decide (gainThreshold < v)

/-- The power-on bit, always 1 (R74). -/
def powerOnBit : Bool := true

/-- The channel-select bit: 0 for A, 1 for B (R72). -/
def channelSelectBit (sub : SubChannel) : Bool :=
  match sub with
  | .A => false
  | .B => true

/-- Frame index 1, which the source does not define; DAC_ENCODE writes 0 (R76). -/
def undefinedBit : Bool := false

end Sys2Proof.Machine
end

