-- ==== Sys2Proof/Machine/Clock.lean ====
section
/-! DEFINITION. The Clock (spec R100–R105): CLK_RESET and CLK_ELAPSED, and the two actions the envelope uses. -/

namespace Sys2Proof.Machine

/-- "Reset Clock": `S.t0 <- Sample()` (R101). -/
def clockReset (s : State) : State := { s.drawn with t0 := s.reading }

/-- The value `elapsed()` returns: 0 when the reading is below `S.t0`, else the difference (R102). -/
def elapsedTime (s : State) : Nat := if s.reading < s.t0 then 0 else s.reading - s.t0

/-- What `elapsed()` leaves: the reading is used up, and one below `S.t0` becomes the new `S.t0` (R102). -/
def afterElapsed (s : State) : State := if s.reading < s.t0 then { s.drawn with t0 := s.reading } else s.drawn

/-- CLK_RESET: mark now as zero (R101). -/
def execClkReset (s : State) : Host.Outcome State Fault Refusal :=
  .next ((clockReset s).returning .none)

/-- CLK_ELAPSED: time since the last reset, auto-correcting on wraparound (R102). -/
def execClkElapsed (s : State) : Host.Outcome State Fault Refusal :=
  .next ((afterElapsed s).returning (.elapsed (elapsedTime s)))

end Sys2Proof.Machine
end

