-- ==== Sys2Proof/Machine/Configuration.lean ====
section
/-! DEFINITION. Configuration, the block's reset (spec R260, R261, R263, R35). -/

namespace Sys2Proof.Machine

/-- No two of the channels below `nch` share a chip and sub-channel (R261(e)); that each goes to a chip in {0, 1} and a
sub-channel in {A, B} is the type of `Route`. -/
def chanMapInjective (par : Params) : Bool :=
  decide (∀ c d : Channel, c.val < par.nch → d.val < par.nch →
    perChannelGet par.chanMap c = perChannelGet par.chanMap d → c = d)

/-- R261(a) and (b). -/
def limitsLegal (cfg : Configuration) : Bool :=
  decide (cfg.minLimit < cfg.maxLimit ∧ cfg.minLimit ≤ cfg.sustainLevel ∧ cfg.sustainLevel ≤ cfg.maxLimit)

/-- R261(c). -/
def stepsLegal (cfg : Configuration) : Bool :=
  decide (0 ≤ cfg.step.attack ∧ 0 ≤ cfg.step.decay ∧ 0 ≤ cfg.step.release)

/-- R261(d) and (e). -/
def paramsLegal (par : Params) : Bool :=
  decide (1 ≤ par.nch ∧ par.nch ≤ 4 ∧ par.envChannel.val < par.nch) && chanMapInjective par

/-- CHECK_CONFIG (R261). -/
def checkConfig (cfg : Configuration) : Bool := limitsLegal cfg && stepsLegal cfg && paramsLegal cfg.par

/-- A rate that is not given is the unset sentinel −1 (R260). -/
def rateOrUnset (r : Option Int) : Int := r.getD (-1)

/-- The registers a configuration loads and resets (R260), all but the Clock; the host's side of the state stays. -/
def configured (cfg : Configuration) (s : State) : State :=
  { s with
    minLimit := cfg.minLimit
    maxLimit := cfg.maxLimit
    sustainLevel := cfg.sustainLevel
    rate := ⟨rateOrUnset cfg.rate.attack, rateOrUnset cfg.rate.decay, rateOrUnset cfg.rate.release⟩
    step := ⟨cfg.step.attack.toNat, cfg.step.decay.toNat, cfg.step.release.toNat⟩
    stage := .idle
    currentValue := cfg.minLimit
    easing := false
    last := ⟨none, none, none, none⟩
    pin := ⟨Pins.rest, Pins.rest⟩
    trace := []
    refused := false
    par := cfg.par
    result := .none }

/-- Configuration (R260): a legal one leaves every element at its reset value, with `S.t0 <- Sample()`, whatever the
state before (R263); an illegal one leaves no state defined (R261). -/
def configure (cfg : Configuration) (s : State) : Host.Outcome State Fault Refusal :=
  if checkConfig cfg then .next (clockReset (configured cfg s)) else .refused .invalidConfiguration

end Sys2Proof.Machine
end

