-- ==== Sys2Proof/WellFormed.lean ====
section
/-! DEFINITION. Which operations have a meaning with their operands (spec R82–R86): no reserved `SEL` code, a logical
channel that exists, and no negative step. -/

namespace Sys2Proof

/-- `sel` is not the reserved code 11 (R82, R83). -/
def selLegal (sel : SelCode) : Bool := sel != 0b11#2

/-- Channel `c` exists among `nch` channels (R84). -/
def channelLegal (nch : Nat) (c : Channel) : Bool := decide (c.val < nch)

/-- A step is a percent-of-range delta and may not be negative (R85). -/
def stepLegal (p : Int) : Bool := decide (0 ≤ p)

/-- The operand rules of R82–R85, for a block with `nch` logical channels. -/
def Instr.wellFormed (nch : Nat) : Instr → Bool
  | .clkReset => true
  | .clkElapsed => true
  | .gateOn => true
  | .gateOff => true
  | .advance => true
  | .dacEncode c _ => channelLegal nch c
  | .dacTransmit _ _ => true
  | .dacWrite c _ => channelLegal nch c
  | .tick g => selLegal g
  | .setRate sel _ => selLegal sel
  | .setStep sel p => selLegal sel && stepLegal p
  | .readEnv => true

/-- `i` is well formed for a block with `nch` logical channels. -/
abbrev Instr.WellFormed (nch : Nat) (i : Instr) : Prop := i.wellFormed nch = true

end Sys2Proof
end

