-- ==== Sys2Proof/Decode.lean ====
section
/-! DEFINITION. The two encodings of the block, both ways: the command word (spec R80–R88) and the DAC frame
(R70–R77). The command decoder is total and refuses by name, in the order of R235. -/

namespace Sys2Proof

/-- `OP`, bits 15:12 (R80). -/
def opField (w : CommandWord) : BitVec 4 := w.extractLsb' 12 4

/-- `SEL`, bits 11:10 (R80). -/
def selField (w : CommandWord) : SelCode := w.extractLsb' 10 2

/-- `CH`, bits 9:8 (R80). -/
def chField (w : CommandWord) : BitVec 2 := w.extractLsb' 8 2

/-- `Z`, bits 7:0 (R80). -/
def zField (w : CommandWord) : BitVec 8 := w.extractLsb' 0 8

/-- An operation that uses no field: `SEL`, `CH` and `Z` must be zero (R86). -/
def decodePlain (w : CommandWord) (i : Instr) : Except Reason Instr :=
  if selField w = 0#2 ∧ chField w = 0#2 ∧ zField w = 0#8 then .ok i else .error .reservedField

/-- An operation on a logical channel (R84): `SEL` and `Z` must be zero, then `CH` must be below `NCH` (R86). -/
def decodeOnChannel (nch : Nat) (w : CommandWord) (i : Channel → Instr) : Except Reason Instr :=
  if selField w = 0#2 ∧ zField w = 0#8 then
    if channelLegal nch (chField w).toFin then .ok (i (chField w).toFin) else .error .channelOutOfRange
  else .error .reservedField

/-- An operation on a chip (R84): `SEL`, `Z` and `CH[1]` must be zero (R86), and `CH[0]` is the chip. -/
def decodeOnChip (w : CommandWord) (i : Chip → Instr) : Except Reason Instr :=
  if selField w = 0#2 ∧ zField w = 0#8 ∧ (chField w).getLsbD 1 = false then
    .ok (i (if (chField w).getLsbD 0 then 1 else 0))
  else .error .reservedField

/-- An operation with a `SEL` code (R82, R83): `CH` and `Z` must be zero, then `SEL` must not be 11 (R86). -/
def decodeOnSel (w : CommandWord) (i : SelCode → Instr) : Except Reason Instr :=
  if chField w = 0#2 ∧ zField w = 0#8 then
    if selLegal (selField w) then .ok (i (selField w)) else .error .reservedCode
  else .error .reservedField

/-- The decoder (R81, R86) of a block with `nch` logical channels. DEDUCED (log 12, safe): it refuses `SEL = 11` and
`CH ≥ NCH` itself, as R86 says, and the operations repeat those checks, as their pseudocode says. A negative step is
not refused here but by SET_STEP (R234). -/
def decode (nch : Nat) (p : Packet) : Except Reason Instr :=
  match (opField p.word).toNat with
  | 0x1 => decodePlain p.word .clkReset
  | 0x2 => decodePlain p.word .clkElapsed
  | 0x3 => decodePlain p.word .gateOn
  | 0x4 => decodePlain p.word .gateOff
  | 0x5 => decodePlain p.word .advance
  | 0x6 => decodeOnChannel nch p.word (fun c => .dacEncode c p.arg)
  | 0x7 => decodeOnChip p.word (fun k => .dacTransmit k p.frame)
  | 0x8 => decodeOnChannel nch p.word (fun c => .dacWrite c p.arg)
  | 0x9 => decodeOnSel p.word .tick
  | 0xA => decodeOnSel p.word (fun sel => .setRate sel p.arg)
  | 0xB => decodeOnSel p.word (fun sel => .setStep sel p.arg)
  | 0xC => decodePlain p.word .readEnv
  | _ => .error .reservedOpcode

/-- `OP << 12 | SEL << 10 | CH << 8`, with `Z` zero (R88). -/
def commandWord (op : BitVec 4) (sel : SelCode) (ch : BitVec 2) : CommandWord := op ++ sel ++ ch ++ 0#8

/-- The `CH` field of a logical channel (R84). -/
def channelCode (c : Channel) : BitVec 2 := BitVec.ofFin c

/-- The `CH` field of a chip index: `CH[1] = 0`, `CH[0] = k` (R84). -/
def chipCode (k : Chip) : BitVec 2 := BitVec.ofNat 2 k.val

/-- The encoder: the packet of an operation (R88). -/
def encode : Instr → Packet
  | .clkReset => ⟨commandWord 0x1 0#2 0#2, 0, 0⟩
  | .clkElapsed => ⟨commandWord 0x2 0#2 0#2, 0, 0⟩
  | .gateOn => ⟨commandWord 0x3 0#2 0#2, 0, 0⟩
  | .gateOff => ⟨commandWord 0x4 0#2 0#2, 0, 0⟩
  | .advance => ⟨commandWord 0x5 0#2 0#2, 0, 0⟩
  | .dacEncode c v => ⟨commandWord 0x6 0#2 (channelCode c), v, 0⟩
  | .dacTransmit k w => ⟨commandWord 0x7 0#2 (chipCode k), 0, w⟩
  | .dacWrite c v => ⟨commandWord 0x8 0#2 (channelCode c), v, 0⟩
  | .tick g => ⟨commandWord 0x9 g 0#2, 0, 0⟩
  | .setRate sel r => ⟨commandWord 0xA sel 0#2, r, 0⟩
  | .setStep sel p => ⟨commandWord 0xB sel 0#2, p, 0⟩
  | .readEnv => ⟨commandWord 0xC 0#2 0#2, 0, 0⟩

/-- The host's question about one opcode-table row: a word of at most 16 bits, operand inputs 0, `NCH` at its default.
There is no byte order to undo (R51): the command word is one 16-bit unit (R87). -/
def decodeTableWord (nbits w : Nat) : Option Instr :=
  if nbits ≤ 16 ∧ w < 2 ^ 16 then
    match decode Params.default.nch ⟨BitVec.ofNat 16 w, 0, 0⟩ with
    | .ok i => some i
    | .error _ => none
  else none

/-- `word(f)`: channel select in bit 15 down to the magnitude field in bits 11:0 (R71). -/
def DacFrame.toWord (f : DacFrame) : FrameWord :=
  BitVec.ofBool f.channelSelect ++ BitVec.ofBool f.bit1 ++ BitVec.ofBool f.gainDisable ++ BitVec.ofBool f.powerOn ++ f.field

/-- Reading a frame word back into its fields (R77). -/
def DacFrame.ofWord (w : FrameWord) : DacFrame where
  channelSelect := w.getLsbD 15
  bit1 := w.getLsbD 14
  gainDisable := w.getLsbD 13
  powerOn := w.getLsbD 12
  field := w.extractLsb' 0 12

/-- The frame bit `f(i)`: `word(f)[15 - i]`, index 0 first on the wire (R13, R70). -/
def frameBit (w : FrameWord) (i : Nat) : Bool := w.getLsbD (15 - i)

/-- The sixteen frame bits in wire order, index 0 first (R51, R192). -/
def frameBits (w : FrameWord) : List Bool := (List.range 16).map (frameBit w)

end Sys2Proof
end

