-- ==== Sys2Proof/Machine/Codec.lean ====
section
/-! DEFINITION. The DAC value codec (spec R170–R178): clamp, gain, magnitude, frame, and the last-sent cache. -/

namespace Sys2Proof.Machine

/-- The clamped input `v`, 0 to 4095 (R171). -/
def codecInput (mV : Int) : Nat := (clamp mV 0 vMax).toNat

/-- The gain divisor `d`, 1 or 2 (R172). -/
def gainDivisor (v : Nat) : Nat := if gainThreshold < v then 2 else 1

/-- The magnitude `M = (2 × v) div d`, 0 to 4096, before it is cut to 12 bits (R172). -/
def magnitude (v : Nat) : Nat := (2 * v) / gainDivisor v

/-- The frame of a clamped value for a sub-channel (R71–R76, R173); the field is `M mod 4096` (R75). -/
def frameOf (sub : SubChannel) (v : Nat) : DacFrame where
  channelSelect := channelSelectBit sub
  bit1 := undefinedBit
  gainDisable := gainDisableBit v
  powerOn := powerOnBit
  field := BitVec.ofNat 12 (magnitude v)

/-- The frame word of a value on a channel: a function of the operands alone (R175). -/
def encodedWord (s : State) (c : Channel) (mV : Int) : FrameWord :=
  (frameOf (s.route c).sub (codecInput mV)).toWord

/-- Whether a value's magnitude differs from the one last sent on the channel (R174). -/
def encodeChanged (s : State) (c : Channel) (mV : Int) : Bool :=
  changedFlag (perChannelGet s.last c) (magnitude (codecInput mV))

/-- The cache update of `encode`: the magnitude, only when changed (R174). -/
def encodeCache (s : State) (c : Channel) (mV : Int) : State :=
  if encodeChanged s c mV then
    { s with last := perChannelSet s.last c (some (magnitude (codecInput mV))) }
  else s

/-- DAC_ENCODE (R170): a channel that does not exist is refused; the frame word is returned whether or not it
changed. -/
def execDacEncode (c : Channel) (v : Int) (s : State) : Host.Outcome State Fault Refusal :=
  .next (if s.hasChannel c then
      (encodeCache s c v).returning (.encoded (encodedWord s c v) (encodeChanged s c v))
    else s.refuse .channelOutOfRange)

end Sys2Proof.Machine
end

