-- ==== Sys2Proof/Machine/Envelope.lean ====
section
/-! DEFINITION. The envelope state machine (spec R120–R131), the writes of its rate and step registers (R140, R141)
and its read-back (R142). -/

namespace Sys2Proof.Machine

/-- `turn_on_gate()` (R120). -/
def gateOn (s : State) : State :=
  clockReset { s with easing := easingAfterGateOn s, stage := .attack }

/-- `turn_off_gate()` (R121): unconditional, and `S.easing` is left as it is. -/
def gateOff (s : State) : State :=
  clockReset { s with stage := .release }

/-- The gate operation of a gate event (R82, R212). -/
def applyGate (g : Gate) (s : State) : State :=
  match g with
  | .none => s
  | .rose => gateOn s
  | .fell => gateOff s

/-- EASE (R124): down by 15 % of range, clamped at the minimum, where easing ends; no timer is read. -/
def ease (s : State) : State :=
  if easeReached s (s.currentValue - s.pct easePct) then
    { s with currentValue := s.minLimit, easing := false }
  else { s with currentValue := s.currentValue - s.pct easePct }

/-- The timed step (R123): only when the elapsed time strictly exceeds the stage's rate is the stage's action done, and
then the Clock is reset by a fresh reading, whether or not the stage changed. -/
def timedStep (g : TimedStage) (act : State → State) (s : State) : State :=
  if perStageGet s.rate g < (elapsedTime s : Int) then clockReset (act (afterElapsed s)) else afterElapsed s

/-- The Attack step's value and transition (R126). -/
def attackAct (s : State) : State :=
  if s.maxLimit ≤ s.currentValue + s.pct s.step.attack then { s with currentValue := s.maxLimit, stage := .decay }
  else { s with currentValue := s.currentValue + s.pct s.step.attack }

/-- The Decay step's value and transition (R127). -/
def decayAct (s : State) : State :=
  if s.currentValue - s.pct s.step.decay ≤ s.sustainLevel then
    { s with currentValue := s.sustainLevel, stage := .sustain }
  else { s with currentValue := s.currentValue - s.pct s.step.decay }

/-- The Release step's value and transition (R129). -/
def releaseAct (s : State) : State :=
  if s.currentValue - s.pct s.step.release ≤ s.minLimit then { s with currentValue := s.minLimit, stage := .idle }
  else { s with currentValue := s.currentValue - s.pct s.step.release }

/-- The dispatch on the stage (R122, R126–R130): Idle and Sustain read no timer and write nothing. -/
def stageLogic (s : State) : State :=
  match s.stage with
  | .idle => s
  | .attack => timedStep .A attackAct s
  | .decay => timedStep .D decayAct s
  | .sustain => s
  | .release => timedStep .R releaseAct s

/-- `advance()` (R122): the easing ramp takes precedence over the stage logic. -/
def advance (s : State) : State := if s.easing then ease s else stageLogic s

/-- The percent view (R142): `current_value / (max_limit - min_limit)`, an exact rational;
`Rat.divInt` is the quotient of two integers. -/
def percentView (s : State) : Rat := Rat.divInt s.currentValue s.range

/-- GATE_ON (R120). -/
def execGateOn (s : State) : Host.Outcome State Fault Refusal :=
  .next ((gateOn s).returning .none)

/-- GATE_OFF (R121). -/
def execGateOff (s : State) : Host.Outcome State Fault Refusal :=
  .next ((gateOff s).returning .none)

/-- ADVANCE (R122). -/
def execAdvance (s : State) : Host.Outcome State Fault Refusal :=
  .next ((advance s).returning .none)

/-- SET_RATE (R140): any integer; `SEL = 11` is refused. -/
def execSetRate (sel : SelCode) (r : Int) (s : State) : Host.Outcome State Fault Refusal :=
  .next (match stageOfSel sel with
    | none => s.refuse .reservedCode
    | some g => { s with rate := perStageSet s.rate g r }.returning .none)

/-- SET_STEP (R141): `SEL = 11` is refused first (R235), then a negative step. -/
def execSetStep (sel : SelCode) (p : Int) (s : State) : Host.Outcome State Fault Refusal :=
  .next (match stageOfSel sel with
    | none => s.refuse .reservedCode
    | some g =>
      if p < 0 then s.refuse .illegalOperand
      else { s with step := perStageSet s.step g p.toNat }.returning .none)

/-- READ_ENV (R142). -/
def execReadEnv (s : State) : Host.Outcome State Fault Refusal :=
  .next (s.returning (.envelope (stageCode s.stage) s.currentValue s.easing (percentView s)))

end Sys2Proof.Machine
end

