-- ==== Sys2Proof/Machine/Transport.lean ====
section
/-! DEFINITION. The DAC transport (spec R190–R197): the bit-banged line sequence of one 16-bit frame. -/

namespace Sys2Proof.Machine

/-- One bit on the wire: data first, then the clock high and low (R191, R193). -/
def bitEvents (k : Chip) (b : Bool) : List Event :=
  [.pin k .data b, .pin k .clk true, .pin k .clk false]

/-- The latch pulse, low then high, of a chip whose latch is configured (R191). -/
def latchEvents (k : Chip) (latchPresent : Bool) : List Event :=
  if latchPresent then [.pin k .latch false, .pin k .latch true] else []

/-- The line sequence of one frame (R191): select, exactly sixteen bits, deselect, latch pulse, settle. -/
def transmission (k : Chip) (w : FrameWord) (latchPresent : Bool) : List Event :=
  [.pin k .cs false] ++ (frameBits w).flatMap (bitEvents k) ++ [.pin k .cs true] ++ latchEvents k latchPresent ++
    [.settle k]

/-- `transmit(frame, pins)` (R191). -/
def transmit (k : Chip) (w : FrameWord) (s : State) : State :=
  s.perform (transmission k w (perChipGet s.par.latchPresent k))

/-- DAC_TRANSMIT (R190): any frame is sent as given; the cache is not touched. -/
def execDacTransmit (k : Chip) (w : FrameWord) (s : State) : Host.Outcome State Fault Refusal :=
  .next ((transmit k w s).returning .none)

end Sys2Proof.Machine
end

