-- ==== Sys2Proof/Machine/Driver.lean ====
section
/-! DEFINITION. The driver (spec R210–R214): encode and send if changed, and the control-loop tick. -/

namespace Sys2Proof.Machine

/-- Encode a value and send it on its channel's chip if its magnitude changed (R210, R211). -/
def dacWrite (c : Channel) (mV : Int) (s : State) : State :=
  if encodeChanged s c mV then transmit (s.route c).chip (encodedWord s c mV) (encodeCache s c mV)
  else encodeCache s c mV

/-- The work of one tick after its checks: gate operation, ADVANCE, then the envelope's value to the DAC (R212, R237). -/
def tickWork (g : Gate) (s : State) : State :=
  dacWrite s.par.envChannel (advance (applyGate g s)).currentValue (advance (applyGate g s))

/-- DAC_WRITE (R210): a channel that does not exist is refused. -/
def execDacWrite (c : Channel) (v : Int) (s : State) : Host.Outcome State Fault Refusal :=
  .next (if s.hasChannel c then (dacWrite c v s).returning .none else s.refuse .channelOutOfRange)

/-- TICK (R212): `SEL = 11` is refused. DEDUCED (log 13, safe): the check of its DAC_WRITE runs before any state is
written (R235); no configured block fails it (R261(d)). -/
def execTick (g : SelCode) (s : State) : Host.Outcome State Fault Refusal :=
  .next (match gateOfSel g with
    | none => s.refuse .reservedCode
    | some gate =>
      if s.hasChannel s.par.envChannel then (tickWork gate s).returning .none else s.refuse .channelOutOfRange)

end Sys2Proof.Machine
end

