-- ==== Sys2Proof/Machine/Dispatch.lean ====
section
/-! DEFINITION. One arm per operation of opcode_table.json. -/

namespace Sys2Proof.Machine

def exec (i : Instr) (s : State) : Host.Outcome State Fault Refusal :=
  match i with
  | .clkReset => Sys2Proof.Machine.execClkReset s
  | .clkElapsed => Sys2Proof.Machine.execClkElapsed s
  | .gateOn => Sys2Proof.Machine.execGateOn s
  | .gateOff => Sys2Proof.Machine.execGateOff s
  | .advance => Sys2Proof.Machine.execAdvance s
  | .dacEncode c v => Sys2Proof.Machine.execDacEncode c v s
  | .dacTransmit k w => Sys2Proof.Machine.execDacTransmit k w s
  | .dacWrite c v => Sys2Proof.Machine.execDacWrite c v s
  | .tick g => Sys2Proof.Machine.execTick g s
  | .setRate sel r => Sys2Proof.Machine.execSetRate sel r s
  | .setStep sel p => Sys2Proof.Machine.execSetStep sel p s
  | .readEnv => Sys2Proof.Machine.execReadEnv s

end Sys2Proof.Machine
end

