-- ==== Sys2Proof/Machine/Step.lean ====
section
/-! DEFINITION. One step: the host's next input, whole (spec R28, R55, R217). The block has no program counter and no
program store; operations arrive as host commands (R59). -/

namespace Sys2Proof.Machine

/-- Run one command: decode it and execute it, or refuse it (R86, R234). -/
def runCommand (p : Packet) (s : State) : Host.Outcome State Fault Refusal :=
  match decode s.par.nch p with
  | .ok i => exec i s
  | .error r => .next (s.refuse r)

/-- One step takes the next host input with its timer readings. With none waiting, the block waits: nothing changes
(R28, R217; log 2). -/
def step (s : State) : Host.Outcome State Fault Refusal :=
  match s.inbox with
  | [] => .next s
  | .configure cfg rs :: rest => configure cfg { s with inbox := rest, readings := rs }
  | .command p rs :: rest => runCommand p { s with inbox := rest, readings := rs }

/-- `s` with the command word `w` as the host's next input, operand inputs 0 and timer readings 0 (log 2): the host
issues commands from outside the block, and this stands for that. A command word has 16 bits whatever `nbits` is. -/
def State.withFetchWord (s : State) (_nbits w : Nat) : State :=
  { s with inbox := .command ⟨BitVec.ofNat 16 w, 0, 0⟩ [0, 0, 0] :: s.inbox }

end Sys2Proof.Machine
end

