-- ==== Sys2Proof/Safety.lean ====
section
/-! DEFINITION. The terms claims are stated in: the invariant of every configured block (spec R34, R27, R20), a clean
run (R217), a sequence of commands, the line sequence of one frame (R191), a receiver on one chip's lines (R192, R193)
and the envelope's part of the state. -/

namespace Sys2Proof.Safety

open Sys2Proof.Machine

/-- A legal configuration, as R261 lists it: (a) and (b) the limits, (c) the steps, (d) the channel count and the
driver's channel, (e) no two channels on one sub-channel. -/
structure LegalConfiguration (cfg : Configuration) : Prop where
  range : cfg.minLimit < cfg.maxLimit
  sustain : cfg.minLimit ≤ cfg.sustainLevel ∧ cfg.sustainLevel ≤ cfg.maxLimit
  steps : 0 ≤ cfg.step.attack ∧ 0 ≤ cfg.step.decay ∧ 0 ≤ cfg.step.release
  channels : 1 ≤ cfg.par.nch ∧ cfg.par.nch ≤ 4 ∧ cfg.par.envChannel.val < cfg.par.nch
  injective : ∀ c d : Channel, c.val < cfg.par.nch → d.val < cfg.par.nch →
    perChannelGet cfg.par.chanMap c = perChannelGet cfg.par.chanMap d → c = d

/-- What holds in every state reached from an accepted configuration: R34 (a) to (f), the limits' invariant (R20), the
lines at rest between operations (R27), the width of `S.t0` (R25), and the parameters' ranges (R10, R261). -/
structure Inv (s : State) : Prop where
  range : s.minLimit < s.maxLimit
  sustain : s.minLimit ≤ s.sustainLevel ∧ s.sustainLevel ≤ s.maxLimit
  value : s.minLimit ≤ s.currentValue ∧ s.currentValue ≤ s.maxLimit
  sustainHolds : s.stage = .sustain → s.currentValue = s.sustainLevel
  idleAtMin : s.stage = .idle → s.easing = false → s.currentValue = s.minLimit
  easingAbove : s.easing = true → s.minLimit < s.currentValue
  easingStage : s.easing = true → s.stage = .attack ∨ s.stage = .release
  cache : ∀ c m, perChannelGet s.last c = some m → m ≤ 4096
  cacheExists : ∀ c : Channel, s.par.nch ≤ c.val → perChannelGet s.last c = none
  clock : s.t0 < 2 ^ s.par.wT.val
  linesAtRest : ∀ k, (perChipGet s.pin k).cs = true ∧ (perChipGet s.pin k).clk = false ∧
    (perChipGet s.par.latchPresent k = true → (perChipGet s.pin k).latch = true)
  channels : 1 ≤ s.par.nch ∧ s.par.nch ≤ 4 ∧ s.par.envChannel.val < s.par.nch
  injective : ∀ c d : Channel, c.val < s.par.nch → d.val < s.par.nch →
    perChannelGet s.par.chanMap c = perChannelGet s.par.chanMap d → c = d

/-- A `w`-bit word holds `x` exactly, in two's complement. PRESUMED (log 23): the spec gives no representation. -/
def Held (w : Nat) (x : Int) : Prop := -(2 ^ w) ≤ 2 * x ∧ 2 * x < 2 ^ w

/-- The mV values and every intermediate of an envelope computation in `s` (R124, R126, R127, R129): the registers, the
range, each percentage before and after its division, and each value before it is clamped. -/
def envelopeIntermediates (s : State) : List Int :=
  [s.minLimit, s.maxLimit, s.sustainLevel, s.currentValue, s.range] ++
  [easePct, s.step.attack, s.step.decay, s.step.release].map (fun p : Nat => (p : Int) * s.range) ++
  [s.pct easePct, s.pct s.step.attack, s.pct s.step.decay, s.pct s.step.release] ++
  [s.currentValue - s.pct easePct, s.currentValue + s.pct s.step.attack, s.currentValue - s.pct s.step.decay,
    s.currentValue - s.pct s.step.release]

/-- What R10 asks of `W_V`: it "must hold every intermediate of 41_envelope.md exactly". -/
def WidthHolds (s : State) : Prop := ∀ x ∈ envelopeIntermediates s, Held s.par.wV x

/-- A run is clean if no command of it was refused (R217, R29). -/
def Clean (s : State) : Prop := s.refused = false

/-- A sequence of operations, one after another (R55). -/
def execAll : List Instr → State → Host.Outcome State Fault Refusal
  | [], s => .next s
  | i :: is, s =>
    match exec i s with
    | .next t => execAll is t
    | .fault f => .fault f
    | .refused r => .refused r

/-- The events of one transmission of `w` to chip `k`, in order (R191). -/
def lineSequence (k : Chip) (w : FrameWord) (latch : Bool) : List Event :=
  [.pin k .cs false] ++
  [15, 14, 13, 12, 11, 10, 9, 8, 7, 6, 5, 4, 3, 2, 1, 0].flatMap (fun b =>
    [.pin k .data (w.getLsbD b), .pin k .clk true, .pin k .clk false]) ++
  [.pin k .cs true] ++
  (if latch then [.pin k .latch false, .pin k .latch true] else []) ++
  [.settle k]

/-- What a receiver on one chip's lines has seen: whether it is selected, the level of DATA, the number shifted in and
how many bits of it, and the frames it has completed. -/
structure Receiver where
  selected : Bool
  data : Bool
  bits : Nat
  value : Nat
  frames : List Nat
deriving DecidableEq, Repr

/-- One event at chip `k`'s receiver: CS low starts a frame, each rising clock while selected shifts DATA in, most
significant bit first (R192), and CS high completes a frame of exactly sixteen bits. -/
def Receiver.observe (k : Chip) (r : Receiver) (e : Event) : Receiver :=
  match e with
  | .pin j line level =>
    if j = k then
      match line with
      | .cs =>
        if level then
          { r with selected := false, frames := if r.selected ∧ r.bits = 16 then r.frames ++ [r.value] else r.frames }
        else { r with selected := true, bits := 0, value := 0 }
      | .data => { r with data := level }
      | .clk => if level ∧ r.selected then { r with bits := r.bits + 1, value := 2 * r.value + r.data.toNat } else r
      | .latch => r
    else r
  | .settle _ => r

/-- The frames a receiver on chip `k`, not selected at first, completes on a list of events. -/
def framesReceived (k : Chip) (events : List Event) : List Nat :=
  (events.foldl (Receiver.observe k) ⟨false, false, 0, 0, []⟩).frames

/-- The stage after an ADVANCE, as the table of R125 gives it. -/
def stageAfterAdvance (s : State) : Stage :=
  if s.easing then s.stage
  else
    match s.stage with
    | .idle => .idle
    | .attack =>
      if s.rate.attack < (elapsedTime s : Int) ∧ s.maxLimit ≤ s.currentValue + s.pct s.step.attack then .decay
      else .attack
    | .decay =>
      if s.rate.decay < (elapsedTime s : Int) ∧ s.currentValue - s.pct s.step.decay ≤ s.sustainLevel then .sustain
      else .decay
    | .sustain => .sustain
    | .release =>
      if s.rate.release < (elapsedTime s : Int) ∧ s.currentValue - s.pct s.step.release ≤ s.minLimit then .idle
      else .release

/-- Two states agree on all that the envelope, its Clock and its inputs are made of: everything but the cache, the
lines, the trace, the refusal mark, the waiting inputs and the last result. -/
structure EnvelopeAgree (s t : State) : Prop where
  minLimit : s.minLimit = t.minLimit
  maxLimit : s.maxLimit = t.maxLimit
  sustainLevel : s.sustainLevel = t.sustainLevel
  rate : s.rate = t.rate
  step : s.step = t.step
  stage : s.stage = t.stage
  currentValue : s.currentValue = t.currentValue
  easing : s.easing = t.easing
  t0 : s.t0 = t.t0
  par : s.par = t.par
  readings : s.readings = t.readings
  draws : s.draws = t.draws

end Sys2Proof.Safety
end

