-- ==== Sys2Proof/Certificates/Slice0/Obligations.lean ====
section
/-! DEFINITION. The statements for the provers, from the numbered rules of the spec. An equation
`exec i s = .next { … with … }` states the operation's effect and its whole frame at once: every field it does not name
is unchanged. `s.reading` is the reading the next `Sample()` returns and `s.drawn` the state once it is taken (where a
reading comes from is the model's: log 3, log 4). What an operation returns (R90), or the reason it was refused (R234),
stands in the field `result`, the model's output port (log 5, log 6). -/

open Sys2Proof Sys2Proof.Machine Sys2Proof.Safety

/-! ### Encodings -/

/-- Derived from R80–R88: every operation decodes from its own packet with every operand at every value. -/
def Obligations.DecodeOfEncodeIsTheOperation : Prop :=
  ∀ (nch : Nat) (i : Instr), i.WellFormed nch → decode nch (encode i) = .ok i

/-- Derived from R86, R234 and R235: the refusal of each of the 65536 words, by the arithmetic of its fields and in the
order of R235; every other word decodes to an operation whose own word it is. That the decoder itself raises the reasons
of `SEL = 11` and `CH ≥ NCH` is the model's reading (log 12). -/
def Obligations.DecoderRefusesByTheFirstReason : Prop :=
  ∀ (nch : Nat) (p : Packet),
    let op := p.word.toNat / 4096
    let sel := p.word.toNat / 1024 % 4
    let ch := p.word.toNat / 256 % 4
    let z := p.word.toNat % 256
    if op = 0 ∨ 13 ≤ op then decode nch p = .error .reservedOpcode
    else if z ≠ 0 ∨ (sel ≠ 0 ∧ op ≠ 9 ∧ op ≠ 10 ∧ op ≠ 11) ∨ (ch ≠ 0 ∧ op ≠ 6 ∧ op ≠ 7 ∧ op ≠ 8) ∨ (op = 7 ∧ 2 ≤ ch) then
      decode nch p = .error .reservedField
    else if sel = 3 then decode nch p = .error .reservedCode
    else if (op = 6 ∨ op = 8) ∧ nch ≤ ch then decode nch p = .error .channelOutOfRange
    else ∃ i, decode nch p = .ok i ∧ (encode i).word = p.word

/-- Words written out from R80, R81 and the examples of R88 decode to the operations they stand for. -/
def Obligations.SampleWordsDecode : Prop :=
  decode 4 ⟨0b0001000000000000, 0, 0⟩ = .ok .clkReset ∧
  decode 4 ⟨0b0101000000000000, 0, 0⟩ = .ok .advance ∧
  decode 4 ⟨0b0110000100000000, 2500, 0⟩ = .ok (.dacEncode 1 2500) ∧
  decode 4 ⟨0b0111000100000000, 0, 0x3000⟩ = .ok (.dacTransmit 1 0x3000) ∧
  decode 4 ⟨0b1001100000000000, 0, 0⟩ = .ok (.tick 0b10) ∧
  decode 4 ⟨0b1011100000000000, 5, 0⟩ = .ok (.setStep 0b10 5)

/-- R71, R77: a frame's fields and its word determine each other, and the word is the sum the fields' places give. -/
def Obligations.FrameWordAndFieldsAgree : Prop :=
  (∀ f : DacFrame, DacFrame.ofWord f.toWord = f ∧
    f.toWord.toNat = f.channelSelect.toNat * 32768 + f.bit1.toNat * 16384 + f.gainDisable.toNat * 8192 +
      f.powerOn.toNat * 4096 + f.field.toNat) ∧
  (∀ w : FrameWord, (DacFrame.ofWord w).toWord = w) ∧
  (∀ (w : FrameWord) (i : Nat), i < 16 → (frameBits w)[i]? = some (w.getLsbD (15 - i)))

/-! ### A step -/

/-- A step runs the decoded command (R28, R55): it takes the host's next input, with its timer readings, and is exactly
`exec` of what the packet decodes to. How inputs wait and carry readings is the model's (log 2, log 3). -/
def Obligations.StepRunsTheDecodedCommand : Prop :=
  ∀ (s : State) (p : Packet) (rs : List Nat) (rest : List HostInput) (i : Instr),
    s.inbox = .command p rs :: rest → decode s.par.nch p = .ok i →
      step s = exec i { s with inbox := rest, readings := rs }

/-- R234, at the step: a word the decoder refuses only sets the mark, and the reason is reported. -/
def Obligations.StepRefusesAnUndecodableCommand : Prop :=
  ∀ (s : State) (p : Packet) (rs : List Nat) (rest : List HostInput) (r : Reason),
    s.inbox = .command p rs :: rest → decode s.par.nch p = .error r →
      step s = .next { s with inbox := rest, readings := rs, refused := true, result := .refused r }

/-- With no input waiting a step changes nothing; the model's choice (log 2). -/
def Obligations.StepWithNoInputChangesNothing : Prop :=
  ∀ s : State, s.inbox = [] → step s = .next s

/-- A step has a next state unless its input is a configuration that R261 refuses. -/
def Obligations.StepStopsOnlyOnARefusedConfiguration : Prop :=
  ∀ s : State, (∃ t, step s = .next t) ∨
    (step s = .refused .invalidConfiguration ∧
      ∃ cfg rs rest, s.inbox = .configure cfg rs :: rest ∧ ¬ LegalConfiguration cfg)

/-! ### Configuration -/

/-- R35, R260, R261: a legal configuration leaves every element at its reset value, whatever the state before, with the
Clock's reference at a fresh reading; a configuration that breaks any of (a) to (e) is refused and leaves no state. -/
def Obligations.ConfigurationResetsEveryElement : Prop :=
  ∀ (s : State) (cfg : Configuration) (rs : List Nat) (rest : List HostInput),
    s.inbox = .configure cfg rs :: rest →
    let u : State := { s with par := cfg.par, inbox := rest, readings := rs }
    (LegalConfiguration cfg →
      step s = .next
        { minLimit := cfg.minLimit, maxLimit := cfg.maxLimit, sustainLevel := cfg.sustainLevel
          rate := ⟨cfg.rate.attack.getD (-1), cfg.rate.decay.getD (-1), cfg.rate.release.getD (-1)⟩
          step := ⟨cfg.step.attack.toNat, cfg.step.decay.toNat, cfg.step.release.toNat⟩
          stage := .idle, currentValue := cfg.minLimit, easing := false, t0 := u.reading
          last := ⟨none, none, none, none⟩
          pin := ⟨⟨true, false, false, true⟩, ⟨true, false, false, true⟩⟩
          refused := false, trace := [], par := cfg.par
          inbox := rest, readings := u.drawn.readings, draws := u.drawn.draws, result := .none }) ∧
    (¬ LegalConfiguration cfg → step s = .refused .invalidConfiguration)

/-- R34, R27: what a legal configuration leaves satisfies the invariant. -/
def Obligations.ConfigurationEstablishesTheInvariant : Prop :=
  ∀ (s t : State) (cfg : Configuration) (rs : List Nat) (rest : List HostInput),
    s.inbox = .configure cfg rs :: rest → LegalConfiguration cfg → step s = .next t → Inv t

/-- The state after reset satisfies the invariant. The values in it that the spec leaves to the host are the model's
(log 8, log 9, log 10). -/
def Obligations.ResetSatisfiesTheInvariant : Prop := Inv State.reset

/-- R267: after any legal configuration and any operations that do not encode on channel `c` (no DAC_ENCODE or DAC_WRITE
of `c`, and no TICK where `c` is the envelope's channel), a DAC_WRITE on `c` transmits, whatever the value. With no
operation between, it is the very next command after the configuration. -/
def Obligations.FirstWriteAfterConfigurationTransmits : Prop :=
  ∀ (s t u : State) (cfg : Configuration) (rs : List Nat) (rest : List HostInput) (l : List Instr) (c : Channel) (v : Int),
    s.inbox = .configure cfg rs :: rest → step s = .next t → c.val < cfg.par.nch →
    (∀ i ∈ l, (∀ x, i ≠ .dacEncode c x) ∧ (∀ x, i ≠ .dacWrite c x) ∧ (c = cfg.par.envChannel → ∀ g, i ≠ .tick g)) →
    execAll l t = .next u →
      t.trace = [] ∧
      ∃ w : State, exec (.dacWrite c v) u = .next w ∧
        w.trace = u.trace ++ lineSequence (perChannelGet cfg.par.chanMap c).chip (encodedWord u c v)
          (perChipGet cfg.par.latchPresent (perChannelGet cfg.par.chanMap c).chip)

/-! ### Clock -/

/-- `Sample()`: the reading is a `u{W_T}`; listed readings are taken in order, and beyond them readings are free.
Where readings are listed is the model's (log 3), as is taking them modulo `2 ^ W_T` (log 4). -/
def Obligations.SampleTakesAFreshReading : Prop :=
  ∀ s : State, s.reading < 2 ^ s.par.wT.val ∧
    (∀ r rs, s.readings = r :: rs → s.reading = r % 2 ^ s.par.wT.val ∧ s.drawn = { s with readings := rs }) ∧
    (s.readings = [] → s.drawn = { s with draws := s.draws + 1 })

/-- R101. -/
def Obligations.ClkResetCapturesTheReading : Prop :=
  (∀ nch arg frame, decode nch ⟨0x1000, arg, frame⟩ = .ok .clkReset) ∧
  ∀ s : State, exec .clkReset s = .next { s.drawn with t0 := s.reading, result := .none }

/-- R102: the difference, or 0 with an implicit reset when the reading is below `S.t0`; the result is a `u{W_T}`. -/
def Obligations.ClkElapsedReturnsTheTimeSinceReset : Prop :=
  (∀ nch arg frame, decode nch ⟨0x2000, arg, frame⟩ = .ok .clkElapsed) ∧
  ∀ s : State,
    (s.reading < s.t0 → exec .clkElapsed s = .next { s.drawn with t0 := s.reading, result := .elapsed 0 }) ∧
    (s.t0 ≤ s.reading → exec .clkElapsed s = .next { s.drawn with result := .elapsed (s.reading - s.t0) } ∧
      s.reading - s.t0 ≤ 2 ^ s.par.wT.val - 1)

/-! ### Envelope -/

/-- R120. -/
def Obligations.GateOnEntersAttack : Prop :=
  (∀ nch arg frame, decode nch ⟨0x3000, arg, frame⟩ = .ok .gateOn) ∧
  ∀ s : State, exec .gateOn s = .next
    { s.drawn with
      easing := if s.minLimit < s.currentValue then true else s.easing
      stage := .attack, t0 := s.reading, result := .none }

/-- R121: in every stage, and easing is left as it is. -/
def Obligations.GateOffEntersRelease : Prop :=
  (∀ nch arg frame, decode nch ⟨0x4000, arg, frame⟩ = .ok .gateOff) ∧
  ∀ s : State, exec .gateOff s = .next { s.drawn with stage := .release, t0 := s.reading, result := .none }

/-- R124: while easing, ADVANCE takes 15 % of range off the value, clamps it at the minimum and clears easing there;
it reads no timer and runs no stage logic. -/
def Obligations.AdvanceWhileEasingRampsToMinimum : Prop :=
  ∀ s : State, s.easing = true →
    let v := s.currentValue - 15 * (s.maxLimit - s.minLimit) / 100
    (v ≤ s.minLimit →
      exec .advance s = .next { s with currentValue := s.minLimit, easing := false, result := .none }) ∧
    (s.minLimit < v → exec .advance s = .next { s with currentValue := v, result := .none })

/-- R128, R130: ADVANCE in Sustain and in Idle reads no timer and writes nothing. -/
def Obligations.AdvanceHoldsInSustainAndIdle : Prop :=
  ∀ s : State, s.easing = false → (s.stage = .sustain ∨ s.stage = .idle) →
    exec .advance s = .next { s with result := .none }

/-- R126: the Attack step, taken only when the elapsed time exceeds the rate, with a fresh reading for its reset. -/
def Obligations.AttackTakesATimedStepUp : Prop :=
  ∀ s : State, s.easing = false → s.stage = .attack →
    let e : Nat := if s.reading < s.t0 then 0 else s.reading - s.t0
    let u : State := { s.drawn with t0 := if s.reading < s.t0 then s.reading else s.t0, result := .none }
    let v : Int := s.currentValue + s.step.attack * (s.maxLimit - s.minLimit) / 100
    ((e : Int) ≤ s.rate.attack → exec .advance s = .next u) ∧
    (s.rate.attack < e → v < s.maxLimit →
      exec .advance s = .next { u.drawn with currentValue := v, t0 := u.reading }) ∧
    (s.rate.attack < e → s.maxLimit ≤ v →
      exec .advance s = .next { u.drawn with currentValue := s.maxLimit, stage := .decay, t0 := u.reading })

/-- R127: the Decay step. -/
def Obligations.DecayTakesATimedStepDown : Prop :=
  ∀ s : State, s.easing = false → s.stage = .decay →
    let e : Nat := if s.reading < s.t0 then 0 else s.reading - s.t0
    let u : State := { s.drawn with t0 := if s.reading < s.t0 then s.reading else s.t0, result := .none }
    let v : Int := s.currentValue - s.step.decay * (s.maxLimit - s.minLimit) / 100
    ((e : Int) ≤ s.rate.decay → exec .advance s = .next u) ∧
    (s.rate.decay < e → s.sustainLevel < v →
      exec .advance s = .next { u.drawn with currentValue := v, t0 := u.reading }) ∧
    (s.rate.decay < e → v ≤ s.sustainLevel →
      exec .advance s = .next { u.drawn with currentValue := s.sustainLevel, stage := .sustain, t0 := u.reading })

/-- R129: the Release step. -/
def Obligations.ReleaseTakesATimedStepDown : Prop :=
  ∀ s : State, s.easing = false → s.stage = .release →
    let e : Nat := if s.reading < s.t0 then 0 else s.reading - s.t0
    let u : State := { s.drawn with t0 := if s.reading < s.t0 then s.reading else s.t0, result := .none }
    let v : Int := s.currentValue - s.step.release * (s.maxLimit - s.minLimit) / 100
    ((e : Int) ≤ s.rate.release → exec .advance s = .next u) ∧
    (s.rate.release < e → s.minLimit < v →
      exec .advance s = .next { u.drawn with currentValue := v, t0 := u.reading }) ∧
    (s.rate.release < e → v ≤ s.minLimit →
      exec .advance s = .next { u.drawn with currentValue := s.minLimit, stage := .idle, t0 := u.reading })

/-- R131: with a negative rate every ADVANCE of a timed stage steps and resets the Clock by its second reading, also on
a wraparound; with rate 0 and no time elapsed, nothing moves. -/
def Obligations.UnsetRateStepsOnEveryAdvance : Prop :=
  ∀ (s : State) (g : TimedStage), s.easing = false →
    (s.stage = match g with | .A => .attack | .D => .decay | .R => .release) →
    (perStageGet s.rate g < 0 →
      ∃ t, exec .advance s = .next t ∧ t.t0 = s.drawn.reading ∧
        t.currentValue = match g with
          | .A => min s.maxLimit (s.currentValue + s.step.attack * (s.maxLimit - s.minLimit) / 100)
          | .D => max s.sustainLevel (s.currentValue - s.step.decay * (s.maxLimit - s.minLimit) / 100)
          | .R => max s.minLimit (s.currentValue - s.step.release * (s.maxLimit - s.minLimit) / 100)) ∧
    (perStageGet s.rate g = 0 → s.reading = s.t0 →
      exec .advance s = .next { s.drawn with result := .none })

/-- R125: the stage after any operation, complete: GATE_ON, GATE_OFF and ADVANCE, alone or within TICK, are its only
writers, and ADVANCE moves it by the table. The premise is R10's range of `envChannel`; outside it see
`TickWithoutAChannelIsRefusedWhole`. -/
def Obligations.StageMovesOnlyByTheTransitionTable : Prop :=
  ∀ (i : Instr) (s t : State), (∀ g, i = .tick g → s.par.envChannel.val < s.par.nch) → exec i s = .next t →
    t.stage = match i with
      | .gateOn => .attack
      | .gateOff => .release
      | .advance => stageAfterAdvance s
      | .tick g =>
        match gateOfSel g with
        | none => s.stage
        | some gate => stageAfterAdvance (applyGate gate s)
      | _ => s.stage

/-- R140: SET_RATE writes one rate with any integer, and refuses `SEL = 11`. -/
def Obligations.SetRateWritesOneRate : Prop :=
  (∀ nch r frame, decode nch ⟨0xA000, r, frame⟩ = .ok (.setRate 0b00 r) ∧
    decode nch ⟨0xA400, r, frame⟩ = .ok (.setRate 0b01 r) ∧ decode nch ⟨0xA800, r, frame⟩ = .ok (.setRate 0b10 r)) ∧
  ∀ (r : Int) (s : State),
    exec (.setRate 0b00 r) s = .next { s with rate := { s.rate with attack := r }, result := .none } ∧
    exec (.setRate 0b01 r) s = .next { s with rate := { s.rate with decay := r }, result := .none } ∧
    exec (.setRate 0b10 r) s = .next { s with rate := { s.rate with release := r }, result := .none } ∧
    exec (.setRate 0b11 r) s = .next { s with refused := true, result := .refused .reservedCode }

/-- R141: SET_STEP writes one step, refuses `SEL = 11` first and then a negative step. -/
def Obligations.SetStepWritesOneStep : Prop :=
  (∀ nch p frame, decode nch ⟨0xB000, p, frame⟩ = .ok (.setStep 0b00 p) ∧
    decode nch ⟨0xB400, p, frame⟩ = .ok (.setStep 0b01 p) ∧ decode nch ⟨0xB800, p, frame⟩ = .ok (.setStep 0b10 p)) ∧
  (∀ (p : Nat) (s : State),
    exec (.setStep 0b00 p) s = .next { s with step := { s.step with attack := p }, result := .none } ∧
    exec (.setStep 0b01 p) s = .next { s with step := { s.step with decay := p }, result := .none } ∧
    exec (.setStep 0b10 p) s = .next { s with step := { s.step with release := p }, result := .none }) ∧
  (∀ (p : Int) (s : State),
    exec (.setStep 0b11 p) s = .next { s with refused := true, result := .refused .reservedCode }) ∧
  (∀ (sel : SelCode) (p : Int) (s : State), sel ≠ 0b11 → p < 0 →
    exec (.setStep sel p) s = .next { s with refused := true, result := .refused .illegalOperand })

/-- R142: READ_ENV returns the stage code, the value, easing and the exact fraction, and changes nothing else. The
range is that of a configured block, so the quotient is the spec's (log 16). -/
def Obligations.ReadEnvReturnsTheEnvelope : Prop :=
  (∀ nch arg frame, decode nch ⟨0xC000, arg, frame⟩ = .ok .readEnv) ∧
  ∀ s : State, s.minLimit < s.maxLimit →
    ∃ (code : BitVec 3) (q : Rat),
      code.toNat = (match s.stage with | .idle => 0 | .attack => 1 | .decay => 2 | .sustain => 3 | .release => 4) ∧
      q * ((s.maxLimit - s.minLimit : Int) : Rat) = (s.currentValue : Rat) ∧
      exec .readEnv s = .next { s with result := .envelope code s.currentValue s.easing q }

/-- R143: with limits as configured and the value within them, no operation takes the value out of them. -/
def Obligations.ValueNeverLeavesTheLimits : Prop :=
  ∀ (i : Instr) (s t : State), s.minLimit ≤ s.sustainLevel → s.sustainLevel ≤ s.maxLimit →
    s.minLimit ≤ s.currentValue → s.currentValue ≤ s.maxLimit → exec i s = .next t →
      t.minLimit ≤ t.currentValue ∧ t.currentValue ≤ t.maxLimit

/-- R144: while easing, one ADVANCE lowers the value by at most 15 % of range and never raises it. -/
def Obligations.EasingStepIsAtMostFifteenPercent : Prop :=
  ∀ s t : State, s.easing = true → s.minLimit < s.currentValue → s.minLimit < s.maxLimit →
    exec .advance s = .next t →
      0 ≤ s.currentValue - t.currentValue ∧
      100 * (s.currentValue - t.currentValue) ≤ 15 * (s.maxLimit - s.minLimit)

/-- R145: with `q = pct(15) > 0`, easing from `x > min` lasts exactly `ceil((x - min) / q)` ADVANCE calls, whatever
gate operations come between them. -/
def Obligations.EasingLastsTheCeilingOfItsHeight : Prop :=
  ∀ (l : List Instr) (s t : State), (∀ i ∈ l, i = .gateOn ∨ i = .gateOff ∨ i = .advance) →
    s.easing = true → s.minLimit < s.currentValue →
    let q := 15 * (s.maxLimit - s.minLimit) / 100
    let n := (s.currentValue - s.minLimit + q - 1) / q
    let k : Int := l.count .advance
    0 < q → execAll l s = .next t →
      (k < n → t.easing = true ∧ t.currentValue = s.currentValue - k * q) ∧
      (k = n → t.easing = false ∧ t.currentValue = s.minLimit)

/-- R146, R273(a): with `pct(15) = 0` an easing block stays easing at the same value under every operation. -/
def Obligations.EasingStallsWhenFifteenPercentIsZero : Prop :=
  ∀ (i : Instr) (s t : State), s.easing = true → s.minLimit < s.currentValue →
    15 * (s.maxLimit - s.minLimit) / 100 = 0 → exec i s = .next t →
      t.easing = true ∧ t.currentValue = s.currentValue ∧ t.minLimit = s.minLimit ∧ t.maxLimit = s.maxLimit

/-- R273 (b) to (d): where a stage's delta is 0 and the value has not reached the stage's end, ADVANCE moves neither the
value nor the stage. -/
def Obligations.ZeroDeltaFreezesTheStage : Prop :=
  ∀ s t : State, s.easing = false → exec .advance s = .next t →
    (s.stage = .attack ∧ s.step.attack * (s.maxLimit - s.minLimit) / 100 = 0 ∧ s.currentValue < s.maxLimit ∨
     s.stage = .decay ∧ s.step.decay * (s.maxLimit - s.minLimit) / 100 = 0 ∧ s.sustainLevel < s.currentValue ∨
     s.stage = .release ∧ s.step.release * (s.maxLimit - s.minLimit) / 100 = 0 ∧ s.minLimit < s.currentValue) →
    t.stage = s.stage ∧ t.currentValue = s.currentValue

/-! ### Codec -/

/-- R170: clamp, gain, magnitude, frame word, cache test and update, for every channel that exists and every integer;
a channel that does not exist is refused. -/
def Obligations.DacEncodeBuildsTheFrame : Prop :=
  (∀ nch v frame, 4 ≤ nch →
    decode nch ⟨0x6000, v, frame⟩ = .ok (.dacEncode 0 v) ∧ decode nch ⟨0x6100, v, frame⟩ = .ok (.dacEncode 1 v) ∧
    decode nch ⟨0x6200, v, frame⟩ = .ok (.dacEncode 2 v) ∧ decode nch ⟨0x6300, v, frame⟩ = .ok (.dacEncode 3 v)) ∧
  ∀ (c : Channel) (x : Int) (s : State),
    let v : Nat := (min (max x 0) 4095).toNat
    let gd : Nat := if 2048 < v then 0 else 1
    let d : Nat := if 2048 < v then 2 else 1
    let m : Nat := 2 * v / d
    let chsel : Nat := if (perChannelGet s.par.chanMap c).sub = .B then 1 else 0
    let w : FrameWord := BitVec.ofNat 16 (chsel * 2 ^ 15 + gd * 2 ^ 13 + 1 * 2 ^ 12 + m % 4096)
    (c.val < s.par.nch → perChannelGet s.last c = some m →
      exec (.dacEncode c x) s = .next { s with result := .encoded w false }) ∧
    (c.val < s.par.nch → perChannelGet s.last c ≠ some m →
      exec (.dacEncode c x) s =
        .next { s with last := perChannelSet s.last c (some m), result := .encoded w true }) ∧
    (s.par.nch ≤ c.val →
      exec (.dacEncode c x) s = .next { s with refused := true, result := .refused .channelOutOfRange })

/-- R176: the map from the value to gain, magnitude and field, with 2048 mV giving magnitude 4096 and field 0; the
first encode of a channel leaves the magnitude in the cache. -/
def Obligations.CodecMapsEveryValue : Prop :=
  ∀ (c : Channel) (v : Nat) (s t : State), v ≤ 4095 → c.val < s.par.nch → perChannelGet s.last c = none →
    exec (.dacEncode c v) s = .next t →
      ∃ w, t.result = .encoded w true ∧
        (DacFrame.ofWord w).gainDisable = decide (v ≤ 2048) ∧ (DacFrame.ofWord w).bit1 = false ∧
        (DacFrame.ofWord w).powerOn = true ∧
        (DacFrame.ofWord w).field.toNat = (if v < 2048 then 2 * v else if v = 2048 then 0 else v) ∧
        perChannelGet t.last c = some (if v ≤ 2048 then 2 * v else v)

/-- R175: the frame word is a function of the value and the channel alone; the cache, the envelope, the lines and the
Clock do not enter it (the channel map is fixed for a launch, R10). -/
def Obligations.FrameWordDependsOnOperandsOnly : Prop :=
  ∀ (c : Channel) (x : Int) (s1 s2 t1 t2 : State) (w1 w2 : FrameWord) (b1 b2 : Bool), s1.par = s2.par →
    exec (.dacEncode c x) s1 = .next t1 → exec (.dacEncode c x) s2 = .next t2 →
    t1.result = .encoded w1 b1 → t2.result = .encoded w2 b2 → w1 = w2

/-- R174, Scenario C: the same value encoded twice in a row on a channel needs no transmission the second time. -/
def Obligations.SecondEqualEncodeIsSuppressed : Prop :=
  ∀ (c : Channel) (x : Int) (s t : State), c.val < s.par.nch → exec (.dacEncode c x) s = .next t →
    ∃ w b, t.result = .encoded w b ∧ exec (.dacEncode c x) t = .next { t with result := .encoded w false }

/-- R177: for an even `M` in 2050..4094, encoding `M` mV and then `M / 2` mV (or the reverse) on one channel reports no
change the second time, although the two frame words differ, in the gain bit alone. -/
def Obligations.GainCollisionIsSuppressed : Prop :=
  ∀ (c : Channel) (h : Nat) (s : State) (a b : Int), 1025 ≤ h → h ≤ 2047 →
    (a = 2 * h ∧ b = h ∨ a = h ∧ b = 2 * h) → c.val < s.par.nch →
      ∃ t w1 w2 b1, exec (.dacEncode c a) s = .next t ∧ t.result = .encoded w1 b1 ∧
        exec (.dacEncode c b) t = .next { t with result := .encoded w2 false } ∧ w1 ^^^ w2 = 0x2000

/-- R26: only DAC_ENCODE, DAC_WRITE and TICK write the cache, only the entry of their channel, and only with a
magnitude; no operation empties an entry (R60). -/
def Obligations.CacheIsWrittenOnlyByTheCodec : Prop :=
  ∀ (i : Instr) (s t : State) (c : Channel), exec i s = .next t →
    perChannelGet t.last c = perChannelGet s.last c ∨
    (∃ m, m ≤ 4096 ∧ perChannelGet t.last c = some m) ∧
      ((∃ v, i = .dacEncode c v) ∨ (∃ v, i = .dacWrite c v) ∨ (∃ g, i = .tick g) ∧ c = s.par.envChannel)

/-! ### Transport -/

/-- R190, R191: DAC_TRANSMIT appends exactly the line sequence (50 pin events, or 52 with a latch, and one Settle), and
leaves chip k's lines at rest with the last bit on DATA; everything else is untouched. -/
def Obligations.TransmitDrivesTheLineSequence : Prop :=
  (∀ nch arg w, decode nch ⟨0x7000, arg, w⟩ = .ok (.dacTransmit 0 w) ∧
    decode nch ⟨0x7100, arg, w⟩ = .ok (.dacTransmit 1 w)) ∧
  ∀ (k : Chip) (w : FrameWord) (s : State),
    exec (.dacTransmit k w) s = .next
      { s with
        trace := s.trace ++ lineSequence k w (perChipGet s.par.latchPresent k)
        pin := perChipSet s.pin k
          { cs := true, clk := false, data := w.getLsbD 0
            latch := if perChipGet s.par.latchPresent k then true else (perChipGet s.pin k).latch }
        result := .none } ∧
    (lineSequence k w (perChipGet s.par.latchPresent k)).length =
      (if perChipGet s.par.latchPresent k then 52 else 50) + 1

/-- R192, R193, R194: a receiver that shifts DATA in on rising clocks, most significant bit first, receives exactly the
frame word on chip k, and the other chip's receiver nothing; DAC_WRITE delivers its word on its channel's chip exactly
when the magnitude changed; every operation but TICK, a composition of these, delivers nothing else. -/
def Obligations.ReceiverRecoversExactlyTheFramesSent : Prop :=
  ∀ (i : Instr) (s t : State) (j : Chip), exec i s = .next t → (∀ g, i ≠ .tick g) →
    ∃ events, t.trace = s.trace ++ events ∧
      framesReceived j events = match i with
        | .dacTransmit k w => if j = k then [w.toNat] else []
        | .dacWrite c v =>
          if c.val < s.par.nch ∧ perChannelGet s.last c ≠ some (magnitude (codecInput v)) ∧
              j = (perChannelGet s.par.chanMap c).chip then
            [(encodedWord s c v).toNat]
          else []
        | _ => []

/-- R31, R55(c): the trace only grows, and only DAC_TRANSMIT, alone or within DAC_WRITE and TICK, drives a line. -/
def Obligations.TraceOnlyGrowsAndOnlyByTransmission : Prop :=
  ∀ (i : Instr) (s t : State), exec i s = .next t →
    (∃ events, t.trace = s.trace ++ events) ∧
    ((t.trace ≠ s.trace ∨ t.pin ≠ s.pin) →
      (∃ k w, i = .dacTransmit k w) ∨ (∃ c v, i = .dacWrite c v) ∨ (∃ g, i = .tick g))

/-! ### Driver -/

/-- R210, R211: DAC_WRITE is DAC_ENCODE and then, only when changed, DAC_TRANSMIT of its word on the channel's chip; a
channel that does not exist is refused. -/
def Obligations.DacWriteIsEncodeThenTransmitIfChanged : Prop :=
  (∀ nch v frame, 4 ≤ nch →
    decode nch ⟨0x8000, v, frame⟩ = .ok (.dacWrite 0 v) ∧ decode nch ⟨0x8100, v, frame⟩ = .ok (.dacWrite 1 v) ∧
    decode nch ⟨0x8200, v, frame⟩ = .ok (.dacWrite 2 v) ∧ decode nch ⟨0x8300, v, frame⟩ = .ok (.dacWrite 3 v)) ∧
  ∀ (c : Channel) (x : Int) (s : State),
    (c.val < s.par.nch →
      ∃ u w changed, exec (.dacEncode c x) s = .next u ∧ u.result = .encoded w changed ∧
        (changed = true →
          ∃ t, exec (.dacTransmit (perChannelGet s.par.chanMap c).chip w) u = .next t ∧
            exec (.dacWrite c x) s = .next t) ∧
        (changed = false → exec (.dacWrite c x) s = .next { u with result := .none })) ∧
    (s.par.nch ≤ c.val →
      exec (.dacWrite c x) s = .next { s with refused := true, result := .refused .channelOutOfRange })

/-- R212: TICK is the gate operation its code names, then ADVANCE, then DAC_WRITE of the value ADVANCE left; code 11 is
refused with no part of it done. -/
def Obligations.TickIsGateThenAdvanceThenWrite : Prop :=
  (∀ nch arg frame, decode nch ⟨0x9000, arg, frame⟩ = .ok (.tick 0b00) ∧
    decode nch ⟨0x9400, arg, frame⟩ = .ok (.tick 0b01) ∧ decode nch ⟨0x9800, arg, frame⟩ = .ok (.tick 0b10)) ∧
  ∀ s : State, s.par.envChannel.val < s.par.nch →
    (∃ u t, exec .advance s = .next u ∧ exec (.dacWrite s.par.envChannel u.currentValue) u = .next t ∧
      exec (.tick 0b00) s = .next t) ∧
    (∃ g u t, exec .gateOn s = .next g ∧ exec .advance g = .next u ∧
      exec (.dacWrite s.par.envChannel u.currentValue) u = .next t ∧ exec (.tick 0b01) s = .next t) ∧
    (∃ g u t, exec .gateOff s = .next g ∧ exec .advance g = .next u ∧
      exec (.dacWrite s.par.envChannel u.currentValue) u = .next t ∧ exec (.tick 0b10) s = .next t) ∧
    exec (.tick 0b11) s = .next { s with refused := true, result := .refused .reservedCode }

/-- Where the envelope's channel does not exist, which R10 and R261(d) rule out, TICK makes the channel check of its
DAC_WRITE before any part of its work; the model's reading of R235 (log 13). -/
def Obligations.TickWithoutAChannelIsRefusedWhole : Prop :=
  ∀ (g : SelCode) (s : State), g ≠ 0b11 → s.par.nch ≤ s.par.envChannel.val →
    exec (.tick g) s = .next { s with refused := true, result := .refused .channelOutOfRange }

/-! ### Parameters -/

/-- R10, R103, R278, D1: the Clock's unit, the settle delay and the value width enter no operation: with other values of
them it does the same to everything else (log 17). -/
def Obligations.RealisationParametersEnterNoOperation : Prop :=
  ∀ (i : Instr) (s t : State) (clockUnit : ClockUnit) (tSettle wV : Nat), exec i s = .next t →
    exec i { s with par := { s.par with clockUnit := clockUnit, tSettle := tSettle, wV := wV } } =
      .next { t with par := { s.par with clockUnit := clockUnit, tSettle := tSettle, wV := wV } }

/-- R10: a value width that holds every intermediate of the envelope's computation also holds the value that any
operation leaves (log 23). -/
def Obligations.ValueStaysInTheValueWidth : Prop :=
  ∀ (i : Instr) (s t : State), WidthHolds s → exec i s = .next t → Held t.par.wV t.currentValue

/-! ### Whole-machine rules -/

/-- R230, R246: every operation on every state completes with a next state: none faults, hangs or is turned away, a
refused command included. -/
def Obligations.EveryOperationCompletes : Prop :=
  ∀ (i : Instr) (s : State), ∃ t, exec i s = .next t

/-- R234, R235: an operation with no meaning changes nothing but the mark (its reason is reported), and one with a
meaning leaves the mark as it was. -/
def Obligations.OnlyOperationsWithoutMeaningAreRefused : Prop :=
  ∀ (i : Instr) (s t : State), s.par.envChannel.val < s.par.nch → exec i s = .next t →
    (i.WellFormed s.par.nch → t.refused = s.refused ∧ ∀ r, t.result ≠ .refused r) ∧
    (¬ i.WellFormed s.par.nch → ∃ r, t = { s with refused := true, result := .refused r } ∧
      (r = .reservedCode ∨ r = .channelOutOfRange ∨ r = .illegalOperand))

/-- R20, R11, R29: no operation writes the limits, the sustain level or the parameters; a rate moves only by SET_RATE
and a step only by SET_STEP; the refusal mark is never cleared. -/
def Obligations.OnlyConfigurationWritesItsRegisters : Prop :=
  ∀ (i : Instr) (s t : State), exec i s = .next t →
    t.minLimit = s.minLimit ∧ t.maxLimit = s.maxLimit ∧ t.sustainLevel = s.sustainLevel ∧ t.par = s.par ∧
    (t.rate ≠ s.rate → ∃ sel r, i = .setRate sel r) ∧ (t.step ≠ s.step → ∃ sel p, i = .setStep sel p) ∧
    (s.refused = true → t.refused = true)

/-- R54: the Clock's reference, the value and easing move only by the operations the table of R54 names. -/
def Obligations.ClockAndEnvelopeWritersAreTheListedOnes : Prop :=
  ∀ (i : Instr) (s t : State), exec i s = .next t →
    (t.t0 ≠ s.t0 → i = .clkReset ∨ i = .clkElapsed ∨ i = .gateOn ∨ i = .gateOff ∨ i = .advance ∨ ∃ g, i = .tick g) ∧
    (t.currentValue ≠ s.currentValue → i = .advance ∨ ∃ g, i = .tick g) ∧
    (t.easing ≠ s.easing → i = .gateOn ∨ i = .advance ∨ ∃ g, i = .tick g)

/-- R34, R27: the invariant holds after every step from every state that has it, commands and configurations alike. -/
def Obligations.EveryStepKeepsTheInvariant : Prop :=
  ∀ s t : State, Inv s → step s = .next t → Inv t

/-- R196, R242: nothing of the DAC side (cache, lines, trace) and no earlier result or refusal influences the envelope:
two states that agree on the envelope's part agree on it after any operation. -/
def Obligations.EnvelopeIgnoresTheWire : Prop :=
  ∀ (i : Instr) (s1 s2 t1 t2 : State), EnvelopeAgree s1 s2 →
    exec i s1 = .next t1 → exec i s2 = .next t2 → EnvelopeAgree t1 t2
end

