-- ==== Sys2Proof/Laws/State.lean ====
section
/-! SUPPORT. For every operation over the state, one simp lemma per field it leaves alone, and one per field it writes
plainly, so that no proof unfolds a record update. -/

namespace Sys2Proof.Machine

variable (s : State)

/-! ### `State.perform` -/

@[simp] theorem perform_minLimit (es : List Event) : (s.perform es).minLimit = s.minLimit := rfl
@[simp] theorem perform_maxLimit (es : List Event) : (s.perform es).maxLimit = s.maxLimit := rfl
@[simp] theorem perform_sustainLevel (es : List Event) : (s.perform es).sustainLevel = s.sustainLevel := rfl
@[simp] theorem perform_rate (es : List Event) : (s.perform es).rate = s.rate := rfl
@[simp] theorem perform_step (es : List Event) : (s.perform es).step = s.step := rfl
@[simp] theorem perform_stage (es : List Event) : (s.perform es).stage = s.stage := rfl
@[simp] theorem perform_currentValue (es : List Event) : (s.perform es).currentValue = s.currentValue := rfl
@[simp] theorem perform_easing (es : List Event) : (s.perform es).easing = s.easing := rfl
@[simp] theorem perform_t0 (es : List Event) : (s.perform es).t0 = s.t0 := rfl
@[simp] theorem perform_last (es : List Event) : (s.perform es).last = s.last := rfl
@[simp] theorem perform_refused (es : List Event) : (s.perform es).refused = s.refused := rfl
@[simp] theorem perform_par (es : List Event) : (s.perform es).par = s.par := rfl
@[simp] theorem perform_inbox (es : List Event) : (s.perform es).inbox = s.inbox := rfl
@[simp] theorem perform_readings (es : List Event) : (s.perform es).readings = s.readings := rfl
@[simp] theorem perform_draws (es : List Event) : (s.perform es).draws = s.draws := rfl
@[simp] theorem perform_result (es : List Event) : (s.perform es).result = s.result := rfl
@[simp] theorem perform_trace (es : List Event) : (s.perform es).trace = s.trace ++ es := rfl
@[simp] theorem perform_pin (es : List Event) : (s.perform es).pin = es.foldl applyEvent s.pin := rfl

/-! ### `State.returning` -/

@[simp] theorem returning_minLimit (r : Result) : (s.returning r).minLimit = s.minLimit := rfl
@[simp] theorem returning_maxLimit (r : Result) : (s.returning r).maxLimit = s.maxLimit := rfl
@[simp] theorem returning_sustainLevel (r : Result) : (s.returning r).sustainLevel = s.sustainLevel := rfl
@[simp] theorem returning_rate (r : Result) : (s.returning r).rate = s.rate := rfl
@[simp] theorem returning_step (r : Result) : (s.returning r).step = s.step := rfl
@[simp] theorem returning_stage (r : Result) : (s.returning r).stage = s.stage := rfl
@[simp] theorem returning_currentValue (r : Result) : (s.returning r).currentValue = s.currentValue := rfl
@[simp] theorem returning_easing (r : Result) : (s.returning r).easing = s.easing := rfl
@[simp] theorem returning_t0 (r : Result) : (s.returning r).t0 = s.t0 := rfl
@[simp] theorem returning_last (r : Result) : (s.returning r).last = s.last := rfl
@[simp] theorem returning_pin (r : Result) : (s.returning r).pin = s.pin := rfl
@[simp] theorem returning_refused (r : Result) : (s.returning r).refused = s.refused := rfl
@[simp] theorem returning_trace (r : Result) : (s.returning r).trace = s.trace := rfl
@[simp] theorem returning_par (r : Result) : (s.returning r).par = s.par := rfl
@[simp] theorem returning_inbox (r : Result) : (s.returning r).inbox = s.inbox := rfl
@[simp] theorem returning_readings (r : Result) : (s.returning r).readings = s.readings := rfl
@[simp] theorem returning_draws (r : Result) : (s.returning r).draws = s.draws := rfl
@[simp] theorem returning_result (r : Result) : (s.returning r).result = r := rfl

/-! ### `State.refuse` -/

@[simp] theorem refuse_minLimit (r : Reason) : (s.refuse r).minLimit = s.minLimit := rfl
@[simp] theorem refuse_maxLimit (r : Reason) : (s.refuse r).maxLimit = s.maxLimit := rfl
@[simp] theorem refuse_sustainLevel (r : Reason) : (s.refuse r).sustainLevel = s.sustainLevel := rfl
@[simp] theorem refuse_rate (r : Reason) : (s.refuse r).rate = s.rate := rfl
@[simp] theorem refuse_step (r : Reason) : (s.refuse r).step = s.step := rfl
@[simp] theorem refuse_stage (r : Reason) : (s.refuse r).stage = s.stage := rfl
@[simp] theorem refuse_currentValue (r : Reason) : (s.refuse r).currentValue = s.currentValue := rfl
@[simp] theorem refuse_easing (r : Reason) : (s.refuse r).easing = s.easing := rfl
@[simp] theorem refuse_t0 (r : Reason) : (s.refuse r).t0 = s.t0 := rfl
@[simp] theorem refuse_last (r : Reason) : (s.refuse r).last = s.last := rfl
@[simp] theorem refuse_pin (r : Reason) : (s.refuse r).pin = s.pin := rfl
@[simp] theorem refuse_trace (r : Reason) : (s.refuse r).trace = s.trace := rfl
@[simp] theorem refuse_par (r : Reason) : (s.refuse r).par = s.par := rfl
@[simp] theorem refuse_inbox (r : Reason) : (s.refuse r).inbox = s.inbox := rfl
@[simp] theorem refuse_readings (r : Reason) : (s.refuse r).readings = s.readings := rfl
@[simp] theorem refuse_draws (r : Reason) : (s.refuse r).draws = s.draws := rfl
@[simp] theorem refuse_refused (r : Reason) : (s.refuse r).refused = true := rfl
@[simp] theorem refuse_result (r : Reason) : (s.refuse r).result = .refused r := rfl

/-! ### `State.drawn` -/

@[simp] theorem drawn_minLimit : (s.drawn).minLimit = s.minLimit := by unfold State.drawn; split <;> rfl
@[simp] theorem drawn_maxLimit : (s.drawn).maxLimit = s.maxLimit := by unfold State.drawn; split <;> rfl
@[simp] theorem drawn_sustainLevel : (s.drawn).sustainLevel = s.sustainLevel := by unfold State.drawn; split <;> rfl
@[simp] theorem drawn_rate : (s.drawn).rate = s.rate := by unfold State.drawn; split <;> rfl
@[simp] theorem drawn_step : (s.drawn).step = s.step := by unfold State.drawn; split <;> rfl
@[simp] theorem drawn_stage : (s.drawn).stage = s.stage := by unfold State.drawn; split <;> rfl
@[simp] theorem drawn_currentValue : (s.drawn).currentValue = s.currentValue := by unfold State.drawn; split <;> rfl
@[simp] theorem drawn_easing : (s.drawn).easing = s.easing := by unfold State.drawn; split <;> rfl
@[simp] theorem drawn_t0 : (s.drawn).t0 = s.t0 := by unfold State.drawn; split <;> rfl
@[simp] theorem drawn_last : (s.drawn).last = s.last := by unfold State.drawn; split <;> rfl
@[simp] theorem drawn_pin : (s.drawn).pin = s.pin := by unfold State.drawn; split <;> rfl
@[simp] theorem drawn_refused : (s.drawn).refused = s.refused := by unfold State.drawn; split <;> rfl
@[simp] theorem drawn_trace : (s.drawn).trace = s.trace := by unfold State.drawn; split <;> rfl
@[simp] theorem drawn_par : (s.drawn).par = s.par := by unfold State.drawn; split <;> rfl
@[simp] theorem drawn_inbox : (s.drawn).inbox = s.inbox := by unfold State.drawn; split <;> rfl
@[simp] theorem drawn_result : (s.drawn).result = s.result := by unfold State.drawn; split <;> rfl

/-! ### `clockReset` -/

@[simp] theorem clockReset_minLimit : (clockReset s).minLimit = s.minLimit := by simp [clockReset]
@[simp] theorem clockReset_maxLimit : (clockReset s).maxLimit = s.maxLimit := by simp [clockReset]
@[simp] theorem clockReset_sustainLevel : (clockReset s).sustainLevel = s.sustainLevel := by simp [clockReset]
@[simp] theorem clockReset_rate : (clockReset s).rate = s.rate := by simp [clockReset]
@[simp] theorem clockReset_step : (clockReset s).step = s.step := by simp [clockReset]
@[simp] theorem clockReset_stage : (clockReset s).stage = s.stage := by simp [clockReset]
@[simp] theorem clockReset_currentValue : (clockReset s).currentValue = s.currentValue := by simp [clockReset]
@[simp] theorem clockReset_easing : (clockReset s).easing = s.easing := by simp [clockReset]
@[simp] theorem clockReset_last : (clockReset s).last = s.last := by simp [clockReset]
@[simp] theorem clockReset_pin : (clockReset s).pin = s.pin := by simp [clockReset]
@[simp] theorem clockReset_refused : (clockReset s).refused = s.refused := by simp [clockReset]
@[simp] theorem clockReset_trace : (clockReset s).trace = s.trace := by simp [clockReset]
@[simp] theorem clockReset_par : (clockReset s).par = s.par := by simp [clockReset]
@[simp] theorem clockReset_inbox : (clockReset s).inbox = s.inbox := by simp [clockReset]
@[simp] theorem clockReset_result : (clockReset s).result = s.result := by simp [clockReset]
@[simp] theorem clockReset_t0 : (clockReset s).t0 = s.reading := by simp [clockReset]
@[simp] theorem clockReset_readings : (clockReset s).readings = s.drawn.readings := by simp [clockReset]
@[simp] theorem clockReset_draws : (clockReset s).draws = s.drawn.draws := by simp [clockReset]

/-! ### `afterElapsed` -/

@[simp] theorem afterElapsed_minLimit : (afterElapsed s).minLimit = s.minLimit := by unfold afterElapsed; split <;> simp
@[simp] theorem afterElapsed_maxLimit : (afterElapsed s).maxLimit = s.maxLimit := by unfold afterElapsed; split <;> simp
@[simp] theorem afterElapsed_sustainLevel : (afterElapsed s).sustainLevel = s.sustainLevel := by unfold afterElapsed; split <;> simp
@[simp] theorem afterElapsed_rate : (afterElapsed s).rate = s.rate := by unfold afterElapsed; split <;> simp
@[simp] theorem afterElapsed_step : (afterElapsed s).step = s.step := by unfold afterElapsed; split <;> simp
@[simp] theorem afterElapsed_stage : (afterElapsed s).stage = s.stage := by unfold afterElapsed; split <;> simp
@[simp] theorem afterElapsed_currentValue : (afterElapsed s).currentValue = s.currentValue := by unfold afterElapsed; split <;> simp
@[simp] theorem afterElapsed_easing : (afterElapsed s).easing = s.easing := by unfold afterElapsed; split <;> simp
@[simp] theorem afterElapsed_last : (afterElapsed s).last = s.last := by unfold afterElapsed; split <;> simp
@[simp] theorem afterElapsed_pin : (afterElapsed s).pin = s.pin := by unfold afterElapsed; split <;> simp
@[simp] theorem afterElapsed_refused : (afterElapsed s).refused = s.refused := by unfold afterElapsed; split <;> simp
@[simp] theorem afterElapsed_trace : (afterElapsed s).trace = s.trace := by unfold afterElapsed; split <;> simp
@[simp] theorem afterElapsed_par : (afterElapsed s).par = s.par := by unfold afterElapsed; split <;> simp
@[simp] theorem afterElapsed_inbox : (afterElapsed s).inbox = s.inbox := by unfold afterElapsed; split <;> simp
@[simp] theorem afterElapsed_result : (afterElapsed s).result = s.result := by unfold afterElapsed; split <;> simp
@[simp] theorem afterElapsed_readings : (afterElapsed s).readings = s.drawn.readings := by unfold afterElapsed; split <;> simp
@[simp] theorem afterElapsed_draws : (afterElapsed s).draws = s.drawn.draws := by unfold afterElapsed; split <;> simp

/-! ### `gateOn` -/

@[simp] theorem gateOn_minLimit : (gateOn s).minLimit = s.minLimit := by simp [gateOn]
@[simp] theorem gateOn_maxLimit : (gateOn s).maxLimit = s.maxLimit := by simp [gateOn]
@[simp] theorem gateOn_sustainLevel : (gateOn s).sustainLevel = s.sustainLevel := by simp [gateOn]
@[simp] theorem gateOn_rate : (gateOn s).rate = s.rate := by simp [gateOn]
@[simp] theorem gateOn_step : (gateOn s).step = s.step := by simp [gateOn]
@[simp] theorem gateOn_currentValue : (gateOn s).currentValue = s.currentValue := by simp [gateOn]
@[simp] theorem gateOn_last : (gateOn s).last = s.last := by simp [gateOn]
@[simp] theorem gateOn_pin : (gateOn s).pin = s.pin := by simp [gateOn]
@[simp] theorem gateOn_refused : (gateOn s).refused = s.refused := by simp [gateOn]
@[simp] theorem gateOn_trace : (gateOn s).trace = s.trace := by simp [gateOn]
@[simp] theorem gateOn_par : (gateOn s).par = s.par := by simp [gateOn]
@[simp] theorem gateOn_inbox : (gateOn s).inbox = s.inbox := by simp [gateOn]
@[simp] theorem gateOn_result : (gateOn s).result = s.result := by simp [gateOn]
@[simp] theorem gateOn_easing : (gateOn s).easing = easingAfterGateOn s := by simp [gateOn]
@[simp] theorem gateOn_stage : (gateOn s).stage = .attack := by simp [gateOn]

/-! ### `gateOff` -/

@[simp] theorem gateOff_minLimit : (gateOff s).minLimit = s.minLimit := by simp [gateOff]
@[simp] theorem gateOff_maxLimit : (gateOff s).maxLimit = s.maxLimit := by simp [gateOff]
@[simp] theorem gateOff_sustainLevel : (gateOff s).sustainLevel = s.sustainLevel := by simp [gateOff]
@[simp] theorem gateOff_rate : (gateOff s).rate = s.rate := by simp [gateOff]
@[simp] theorem gateOff_step : (gateOff s).step = s.step := by simp [gateOff]
@[simp] theorem gateOff_currentValue : (gateOff s).currentValue = s.currentValue := by simp [gateOff]
@[simp] theorem gateOff_easing : (gateOff s).easing = s.easing := by simp [gateOff]
@[simp] theorem gateOff_last : (gateOff s).last = s.last := by simp [gateOff]
@[simp] theorem gateOff_pin : (gateOff s).pin = s.pin := by simp [gateOff]
@[simp] theorem gateOff_refused : (gateOff s).refused = s.refused := by simp [gateOff]
@[simp] theorem gateOff_trace : (gateOff s).trace = s.trace := by simp [gateOff]
@[simp] theorem gateOff_par : (gateOff s).par = s.par := by simp [gateOff]
@[simp] theorem gateOff_inbox : (gateOff s).inbox = s.inbox := by simp [gateOff]
@[simp] theorem gateOff_result : (gateOff s).result = s.result := by simp [gateOff]
@[simp] theorem gateOff_stage : (gateOff s).stage = .release := by simp [gateOff]

/-! ### `applyGate` -/

@[simp] theorem applyGate_minLimit (g : Gate) : (applyGate g s).minLimit = s.minLimit := by cases g <;> simp [applyGate]
@[simp] theorem applyGate_maxLimit (g : Gate) : (applyGate g s).maxLimit = s.maxLimit := by cases g <;> simp [applyGate]
@[simp] theorem applyGate_sustainLevel (g : Gate) : (applyGate g s).sustainLevel = s.sustainLevel := by cases g <;> simp [applyGate]
@[simp] theorem applyGate_rate (g : Gate) : (applyGate g s).rate = s.rate := by cases g <;> simp [applyGate]
@[simp] theorem applyGate_step (g : Gate) : (applyGate g s).step = s.step := by cases g <;> simp [applyGate]
@[simp] theorem applyGate_currentValue (g : Gate) : (applyGate g s).currentValue = s.currentValue := by cases g <;> simp [applyGate]
@[simp] theorem applyGate_last (g : Gate) : (applyGate g s).last = s.last := by cases g <;> simp [applyGate]
@[simp] theorem applyGate_pin (g : Gate) : (applyGate g s).pin = s.pin := by cases g <;> simp [applyGate]
@[simp] theorem applyGate_refused (g : Gate) : (applyGate g s).refused = s.refused := by cases g <;> simp [applyGate]
@[simp] theorem applyGate_trace (g : Gate) : (applyGate g s).trace = s.trace := by cases g <;> simp [applyGate]
@[simp] theorem applyGate_par (g : Gate) : (applyGate g s).par = s.par := by cases g <;> simp [applyGate]
@[simp] theorem applyGate_inbox (g : Gate) : (applyGate g s).inbox = s.inbox := by cases g <;> simp [applyGate]
@[simp] theorem applyGate_result (g : Gate) : (applyGate g s).result = s.result := by cases g <;> simp [applyGate]

/-! ### `ease` -/

@[simp] theorem ease_minLimit : (ease s).minLimit = s.minLimit := by unfold ease; split <;> rfl
@[simp] theorem ease_maxLimit : (ease s).maxLimit = s.maxLimit := by unfold ease; split <;> rfl
@[simp] theorem ease_sustainLevel : (ease s).sustainLevel = s.sustainLevel := by unfold ease; split <;> rfl
@[simp] theorem ease_rate : (ease s).rate = s.rate := by unfold ease; split <;> rfl
@[simp] theorem ease_step : (ease s).step = s.step := by unfold ease; split <;> rfl
@[simp] theorem ease_stage : (ease s).stage = s.stage := by unfold ease; split <;> rfl
@[simp] theorem ease_t0 : (ease s).t0 = s.t0 := by unfold ease; split <;> rfl
@[simp] theorem ease_last : (ease s).last = s.last := by unfold ease; split <;> rfl
@[simp] theorem ease_pin : (ease s).pin = s.pin := by unfold ease; split <;> rfl
@[simp] theorem ease_refused : (ease s).refused = s.refused := by unfold ease; split <;> rfl
@[simp] theorem ease_trace : (ease s).trace = s.trace := by unfold ease; split <;> rfl
@[simp] theorem ease_par : (ease s).par = s.par := by unfold ease; split <;> rfl
@[simp] theorem ease_inbox : (ease s).inbox = s.inbox := by unfold ease; split <;> rfl
@[simp] theorem ease_readings : (ease s).readings = s.readings := by unfold ease; split <;> rfl
@[simp] theorem ease_draws : (ease s).draws = s.draws := by unfold ease; split <;> rfl
@[simp] theorem ease_result : (ease s).result = s.result := by unfold ease; split <;> rfl

/-! ### `attackAct` -/

@[simp] theorem attackAct_minLimit : (attackAct s).minLimit = s.minLimit := by unfold attackAct; split <;> rfl
@[simp] theorem attackAct_maxLimit : (attackAct s).maxLimit = s.maxLimit := by unfold attackAct; split <;> rfl
@[simp] theorem attackAct_sustainLevel : (attackAct s).sustainLevel = s.sustainLevel := by unfold attackAct; split <;> rfl
@[simp] theorem attackAct_rate : (attackAct s).rate = s.rate := by unfold attackAct; split <;> rfl
@[simp] theorem attackAct_step : (attackAct s).step = s.step := by unfold attackAct; split <;> rfl
@[simp] theorem attackAct_easing : (attackAct s).easing = s.easing := by unfold attackAct; split <;> rfl
@[simp] theorem attackAct_t0 : (attackAct s).t0 = s.t0 := by unfold attackAct; split <;> rfl
@[simp] theorem attackAct_last : (attackAct s).last = s.last := by unfold attackAct; split <;> rfl
@[simp] theorem attackAct_pin : (attackAct s).pin = s.pin := by unfold attackAct; split <;> rfl
@[simp] theorem attackAct_refused : (attackAct s).refused = s.refused := by unfold attackAct; split <;> rfl
@[simp] theorem attackAct_trace : (attackAct s).trace = s.trace := by unfold attackAct; split <;> rfl
@[simp] theorem attackAct_par : (attackAct s).par = s.par := by unfold attackAct; split <;> rfl
@[simp] theorem attackAct_inbox : (attackAct s).inbox = s.inbox := by unfold attackAct; split <;> rfl
@[simp] theorem attackAct_readings : (attackAct s).readings = s.readings := by unfold attackAct; split <;> rfl
@[simp] theorem attackAct_draws : (attackAct s).draws = s.draws := by unfold attackAct; split <;> rfl
@[simp] theorem attackAct_result : (attackAct s).result = s.result := by unfold attackAct; split <;> rfl

/-! ### `decayAct` -/

@[simp] theorem decayAct_minLimit : (decayAct s).minLimit = s.minLimit := by unfold decayAct; split <;> rfl
@[simp] theorem decayAct_maxLimit : (decayAct s).maxLimit = s.maxLimit := by unfold decayAct; split <;> rfl
@[simp] theorem decayAct_sustainLevel : (decayAct s).sustainLevel = s.sustainLevel := by unfold decayAct; split <;> rfl
@[simp] theorem decayAct_rate : (decayAct s).rate = s.rate := by unfold decayAct; split <;> rfl
@[simp] theorem decayAct_step : (decayAct s).step = s.step := by unfold decayAct; split <;> rfl
@[simp] theorem decayAct_easing : (decayAct s).easing = s.easing := by unfold decayAct; split <;> rfl
@[simp] theorem decayAct_t0 : (decayAct s).t0 = s.t0 := by unfold decayAct; split <;> rfl
@[simp] theorem decayAct_last : (decayAct s).last = s.last := by unfold decayAct; split <;> rfl
@[simp] theorem decayAct_pin : (decayAct s).pin = s.pin := by unfold decayAct; split <;> rfl
@[simp] theorem decayAct_refused : (decayAct s).refused = s.refused := by unfold decayAct; split <;> rfl
@[simp] theorem decayAct_trace : (decayAct s).trace = s.trace := by unfold decayAct; split <;> rfl
@[simp] theorem decayAct_par : (decayAct s).par = s.par := by unfold decayAct; split <;> rfl
@[simp] theorem decayAct_inbox : (decayAct s).inbox = s.inbox := by unfold decayAct; split <;> rfl
@[simp] theorem decayAct_readings : (decayAct s).readings = s.readings := by unfold decayAct; split <;> rfl
@[simp] theorem decayAct_draws : (decayAct s).draws = s.draws := by unfold decayAct; split <;> rfl
@[simp] theorem decayAct_result : (decayAct s).result = s.result := by unfold decayAct; split <;> rfl

/-! ### `releaseAct` -/

@[simp] theorem releaseAct_minLimit : (releaseAct s).minLimit = s.minLimit := by unfold releaseAct; split <;> rfl
@[simp] theorem releaseAct_maxLimit : (releaseAct s).maxLimit = s.maxLimit := by unfold releaseAct; split <;> rfl
@[simp] theorem releaseAct_sustainLevel : (releaseAct s).sustainLevel = s.sustainLevel := by unfold releaseAct; split <;> rfl
@[simp] theorem releaseAct_rate : (releaseAct s).rate = s.rate := by unfold releaseAct; split <;> rfl
@[simp] theorem releaseAct_step : (releaseAct s).step = s.step := by unfold releaseAct; split <;> rfl
@[simp] theorem releaseAct_easing : (releaseAct s).easing = s.easing := by unfold releaseAct; split <;> rfl
@[simp] theorem releaseAct_t0 : (releaseAct s).t0 = s.t0 := by unfold releaseAct; split <;> rfl
@[simp] theorem releaseAct_last : (releaseAct s).last = s.last := by unfold releaseAct; split <;> rfl
@[simp] theorem releaseAct_pin : (releaseAct s).pin = s.pin := by unfold releaseAct; split <;> rfl
@[simp] theorem releaseAct_refused : (releaseAct s).refused = s.refused := by unfold releaseAct; split <;> rfl
@[simp] theorem releaseAct_trace : (releaseAct s).trace = s.trace := by unfold releaseAct; split <;> rfl
@[simp] theorem releaseAct_par : (releaseAct s).par = s.par := by unfold releaseAct; split <;> rfl
@[simp] theorem releaseAct_inbox : (releaseAct s).inbox = s.inbox := by unfold releaseAct; split <;> rfl
@[simp] theorem releaseAct_readings : (releaseAct s).readings = s.readings := by unfold releaseAct; split <;> rfl
@[simp] theorem releaseAct_draws : (releaseAct s).draws = s.draws := by unfold releaseAct; split <;> rfl
@[simp] theorem releaseAct_result : (releaseAct s).result = s.result := by unfold releaseAct; split <;> rfl

/-! ### `stageLogic` -/

@[simp] theorem stageLogic_minLimit : (stageLogic s).minLimit = s.minLimit := by unfold stageLogic timedStep; split <;> (try split) <;> simp
@[simp] theorem stageLogic_maxLimit : (stageLogic s).maxLimit = s.maxLimit := by unfold stageLogic timedStep; split <;> (try split) <;> simp
@[simp] theorem stageLogic_sustainLevel : (stageLogic s).sustainLevel = s.sustainLevel := by unfold stageLogic timedStep; split <;> (try split) <;> simp
@[simp] theorem stageLogic_rate : (stageLogic s).rate = s.rate := by unfold stageLogic timedStep; split <;> (try split) <;> simp
@[simp] theorem stageLogic_step : (stageLogic s).step = s.step := by unfold stageLogic timedStep; split <;> (try split) <;> simp
@[simp] theorem stageLogic_easing : (stageLogic s).easing = s.easing := by unfold stageLogic timedStep; split <;> (try split) <;> simp
@[simp] theorem stageLogic_last : (stageLogic s).last = s.last := by unfold stageLogic timedStep; split <;> (try split) <;> simp
@[simp] theorem stageLogic_pin : (stageLogic s).pin = s.pin := by unfold stageLogic timedStep; split <;> (try split) <;> simp
@[simp] theorem stageLogic_refused : (stageLogic s).refused = s.refused := by unfold stageLogic timedStep; split <;> (try split) <;> simp
@[simp] theorem stageLogic_trace : (stageLogic s).trace = s.trace := by unfold stageLogic timedStep; split <;> (try split) <;> simp
@[simp] theorem stageLogic_par : (stageLogic s).par = s.par := by unfold stageLogic timedStep; split <;> (try split) <;> simp
@[simp] theorem stageLogic_inbox : (stageLogic s).inbox = s.inbox := by unfold stageLogic timedStep; split <;> (try split) <;> simp
@[simp] theorem stageLogic_result : (stageLogic s).result = s.result := by unfold stageLogic timedStep; split <;> (try split) <;> simp

/-! ### `advance` -/

@[simp] theorem advance_minLimit : (advance s).minLimit = s.minLimit := by unfold advance; split <;> simp
@[simp] theorem advance_maxLimit : (advance s).maxLimit = s.maxLimit := by unfold advance; split <;> simp
@[simp] theorem advance_sustainLevel : (advance s).sustainLevel = s.sustainLevel := by unfold advance; split <;> simp
@[simp] theorem advance_rate : (advance s).rate = s.rate := by unfold advance; split <;> simp
@[simp] theorem advance_step : (advance s).step = s.step := by unfold advance; split <;> simp
@[simp] theorem advance_last : (advance s).last = s.last := by unfold advance; split <;> simp
@[simp] theorem advance_pin : (advance s).pin = s.pin := by unfold advance; split <;> simp
@[simp] theorem advance_refused : (advance s).refused = s.refused := by unfold advance; split <;> simp
@[simp] theorem advance_trace : (advance s).trace = s.trace := by unfold advance; split <;> simp
@[simp] theorem advance_par : (advance s).par = s.par := by unfold advance; split <;> simp
@[simp] theorem advance_inbox : (advance s).inbox = s.inbox := by unfold advance; split <;> simp
@[simp] theorem advance_result : (advance s).result = s.result := by unfold advance; split <;> simp

/-! ### `encodeCache` -/

@[simp] theorem encodeCache_minLimit (c : Channel) (v : Int) : (encodeCache s c v).minLimit = s.minLimit := by unfold encodeCache; split <;> rfl
@[simp] theorem encodeCache_maxLimit (c : Channel) (v : Int) : (encodeCache s c v).maxLimit = s.maxLimit := by unfold encodeCache; split <;> rfl
@[simp] theorem encodeCache_sustainLevel (c : Channel) (v : Int) : (encodeCache s c v).sustainLevel = s.sustainLevel := by unfold encodeCache; split <;> rfl
@[simp] theorem encodeCache_rate (c : Channel) (v : Int) : (encodeCache s c v).rate = s.rate := by unfold encodeCache; split <;> rfl
@[simp] theorem encodeCache_step (c : Channel) (v : Int) : (encodeCache s c v).step = s.step := by unfold encodeCache; split <;> rfl
@[simp] theorem encodeCache_stage (c : Channel) (v : Int) : (encodeCache s c v).stage = s.stage := by unfold encodeCache; split <;> rfl
@[simp] theorem encodeCache_currentValue (c : Channel) (v : Int) : (encodeCache s c v).currentValue = s.currentValue := by unfold encodeCache; split <;> rfl
@[simp] theorem encodeCache_easing (c : Channel) (v : Int) : (encodeCache s c v).easing = s.easing := by unfold encodeCache; split <;> rfl
@[simp] theorem encodeCache_t0 (c : Channel) (v : Int) : (encodeCache s c v).t0 = s.t0 := by unfold encodeCache; split <;> rfl
@[simp] theorem encodeCache_pin (c : Channel) (v : Int) : (encodeCache s c v).pin = s.pin := by unfold encodeCache; split <;> rfl
@[simp] theorem encodeCache_refused (c : Channel) (v : Int) : (encodeCache s c v).refused = s.refused := by unfold encodeCache; split <;> rfl
@[simp] theorem encodeCache_trace (c : Channel) (v : Int) : (encodeCache s c v).trace = s.trace := by unfold encodeCache; split <;> rfl
@[simp] theorem encodeCache_par (c : Channel) (v : Int) : (encodeCache s c v).par = s.par := by unfold encodeCache; split <;> rfl
@[simp] theorem encodeCache_inbox (c : Channel) (v : Int) : (encodeCache s c v).inbox = s.inbox := by unfold encodeCache; split <;> rfl
@[simp] theorem encodeCache_readings (c : Channel) (v : Int) : (encodeCache s c v).readings = s.readings := by unfold encodeCache; split <;> rfl
@[simp] theorem encodeCache_draws (c : Channel) (v : Int) : (encodeCache s c v).draws = s.draws := by unfold encodeCache; split <;> rfl
@[simp] theorem encodeCache_result (c : Channel) (v : Int) : (encodeCache s c v).result = s.result := by unfold encodeCache; split <;> rfl

/-! ### `transmit` -/

@[simp] theorem transmit_minLimit (k : Chip) (w : FrameWord) : (transmit k w s).minLimit = s.minLimit := by simp [transmit]
@[simp] theorem transmit_maxLimit (k : Chip) (w : FrameWord) : (transmit k w s).maxLimit = s.maxLimit := by simp [transmit]
@[simp] theorem transmit_sustainLevel (k : Chip) (w : FrameWord) : (transmit k w s).sustainLevel = s.sustainLevel := by simp [transmit]
@[simp] theorem transmit_rate (k : Chip) (w : FrameWord) : (transmit k w s).rate = s.rate := by simp [transmit]
@[simp] theorem transmit_step (k : Chip) (w : FrameWord) : (transmit k w s).step = s.step := by simp [transmit]
@[simp] theorem transmit_stage (k : Chip) (w : FrameWord) : (transmit k w s).stage = s.stage := by simp [transmit]
@[simp] theorem transmit_currentValue (k : Chip) (w : FrameWord) : (transmit k w s).currentValue = s.currentValue := by simp [transmit]
@[simp] theorem transmit_easing (k : Chip) (w : FrameWord) : (transmit k w s).easing = s.easing := by simp [transmit]
@[simp] theorem transmit_t0 (k : Chip) (w : FrameWord) : (transmit k w s).t0 = s.t0 := by simp [transmit]
@[simp] theorem transmit_last (k : Chip) (w : FrameWord) : (transmit k w s).last = s.last := by simp [transmit]
@[simp] theorem transmit_refused (k : Chip) (w : FrameWord) : (transmit k w s).refused = s.refused := by simp [transmit]
@[simp] theorem transmit_par (k : Chip) (w : FrameWord) : (transmit k w s).par = s.par := by simp [transmit]
@[simp] theorem transmit_inbox (k : Chip) (w : FrameWord) : (transmit k w s).inbox = s.inbox := by simp [transmit]
@[simp] theorem transmit_readings (k : Chip) (w : FrameWord) : (transmit k w s).readings = s.readings := by simp [transmit]
@[simp] theorem transmit_draws (k : Chip) (w : FrameWord) : (transmit k w s).draws = s.draws := by simp [transmit]
@[simp] theorem transmit_result (k : Chip) (w : FrameWord) : (transmit k w s).result = s.result := by simp [transmit]
@[simp] theorem transmit_trace (k : Chip) (w : FrameWord) : (transmit k w s).trace = s.trace ++ transmission k w (perChipGet s.par.latchPresent k) := by simp [transmit]

/-! ### `dacWrite` -/

@[simp] theorem dacWrite_minLimit (c : Channel) (v : Int) : (dacWrite c v s).minLimit = s.minLimit := by unfold dacWrite; split <;> simp
@[simp] theorem dacWrite_maxLimit (c : Channel) (v : Int) : (dacWrite c v s).maxLimit = s.maxLimit := by unfold dacWrite; split <;> simp
@[simp] theorem dacWrite_sustainLevel (c : Channel) (v : Int) : (dacWrite c v s).sustainLevel = s.sustainLevel := by unfold dacWrite; split <;> simp
@[simp] theorem dacWrite_rate (c : Channel) (v : Int) : (dacWrite c v s).rate = s.rate := by unfold dacWrite; split <;> simp
@[simp] theorem dacWrite_step (c : Channel) (v : Int) : (dacWrite c v s).step = s.step := by unfold dacWrite; split <;> simp
@[simp] theorem dacWrite_stage (c : Channel) (v : Int) : (dacWrite c v s).stage = s.stage := by unfold dacWrite; split <;> simp
@[simp] theorem dacWrite_currentValue (c : Channel) (v : Int) : (dacWrite c v s).currentValue = s.currentValue := by unfold dacWrite; split <;> simp
@[simp] theorem dacWrite_easing (c : Channel) (v : Int) : (dacWrite c v s).easing = s.easing := by unfold dacWrite; split <;> simp
@[simp] theorem dacWrite_t0 (c : Channel) (v : Int) : (dacWrite c v s).t0 = s.t0 := by unfold dacWrite; split <;> simp
@[simp] theorem dacWrite_refused (c : Channel) (v : Int) : (dacWrite c v s).refused = s.refused := by unfold dacWrite; split <;> simp
@[simp] theorem dacWrite_par (c : Channel) (v : Int) : (dacWrite c v s).par = s.par := by unfold dacWrite; split <;> simp
@[simp] theorem dacWrite_inbox (c : Channel) (v : Int) : (dacWrite c v s).inbox = s.inbox := by unfold dacWrite; split <;> simp
@[simp] theorem dacWrite_readings (c : Channel) (v : Int) : (dacWrite c v s).readings = s.readings := by unfold dacWrite; split <;> simp
@[simp] theorem dacWrite_draws (c : Channel) (v : Int) : (dacWrite c v s).draws = s.draws := by unfold dacWrite; split <;> simp
@[simp] theorem dacWrite_result (c : Channel) (v : Int) : (dacWrite c v s).result = s.result := by unfold dacWrite; split <;> simp
@[simp] theorem dacWrite_last (c : Channel) (v : Int) : (dacWrite c v s).last = (encodeCache s c v).last := by unfold dacWrite; split <;> simp

/-! ### `tickWork` -/

@[simp] theorem tickWork_minLimit (g : Gate) : (tickWork g s).minLimit = s.minLimit := by simp [tickWork]
@[simp] theorem tickWork_maxLimit (g : Gate) : (tickWork g s).maxLimit = s.maxLimit := by simp [tickWork]
@[simp] theorem tickWork_sustainLevel (g : Gate) : (tickWork g s).sustainLevel = s.sustainLevel := by simp [tickWork]
@[simp] theorem tickWork_rate (g : Gate) : (tickWork g s).rate = s.rate := by simp [tickWork]
@[simp] theorem tickWork_step (g : Gate) : (tickWork g s).step = s.step := by simp [tickWork]
@[simp] theorem tickWork_refused (g : Gate) : (tickWork g s).refused = s.refused := by simp [tickWork]
@[simp] theorem tickWork_par (g : Gate) : (tickWork g s).par = s.par := by simp [tickWork]
@[simp] theorem tickWork_inbox (g : Gate) : (tickWork g s).inbox = s.inbox := by simp [tickWork]
@[simp] theorem tickWork_result (g : Gate) : (tickWork g s).result = s.result := by simp [tickWork]

end Sys2Proof.Machine
end

