-- ==== Sys2Proof/Laws/Ops.lean ====
section
/-! SUPPORT. For each shared operation one lemma that says what it can do, to be cited instead of unfolding it. -/

namespace Sys2Proof.Machine

/-! ### States field by field -/

/-- Two states with the same fields are the same state. -/
theorem State.ext_fields {s t : State}
    (minLimit : s.minLimit = t.minLimit) (maxLimit : s.maxLimit = t.maxLimit) (sustainLevel : s.sustainLevel =
    t.sustainLevel) (rate : s.rate = t.rate) (step : s.step = t.step) (stage : s.stage = t.stage) (currentValue :
    s.currentValue = t.currentValue) (easing : s.easing = t.easing) (t0 : s.t0 = t.t0) (last : s.last = t.last)
    (pin : s.pin = t.pin) (refused : s.refused = t.refused) (trace : s.trace = t.trace) (par : s.par = t.par)
    (inbox : s.inbox = t.inbox) (readings : s.readings = t.readings) (draws : s.draws = t.draws) (result :
    s.result = t.result) :
    s = t := by
  cases s; cases t; simp_all

/-! ### Indexed registers: reading what was written -/

@[simp] theorem perChannelGet_set_same {α : Type} (f : PerChannel α) (c : Channel) (a : α) :
    perChannelGet (perChannelSet f c a) c = a := by
  fin_cases c <;> rfl

theorem perChannelGet_set_other {α : Type} (f : PerChannel α) {c d : Channel} (a : α) (h : d ≠ c) :
    perChannelGet (perChannelSet f c a) d = perChannelGet f d := by
  fin_cases c <;> fin_cases d <;> first | rfl | exact absurd rfl h

@[simp] theorem perChipGet_set_same {α : Type} (f : PerChip α) (k : Chip) (a : α) :
    perChipGet (perChipSet f k a) k = a := by
  fin_cases k <;> rfl

theorem perChipGet_set_other {α : Type} (f : PerChip α) {k j : Chip} (a : α) (h : j ≠ k) :
    perChipGet (perChipSet f k a) j = perChipGet f j := by
  fin_cases k <;> fin_cases j <;> first | rfl | exact absurd rfl h

@[simp] theorem perChipSet_set_same {α : Type} (f : PerChip α) (k : Chip) (a b : α) :
    perChipSet (perChipSet f k a) k b = perChipSet f k b := by
  fin_cases k <;> rfl

@[simp] theorem perStageGet_set_same {α : Type} (f : PerStage α) (g : TimedStage) (a : α) :
    perStageGet (perStageSet f g a) g = a := by
  cases g <;> rfl

theorem perStageGet_set_other {α : Type} (f : PerStage α) {g h : TimedStage} (a : α) (hne : h ≠ g) :
    perStageGet (perStageSet f g a) h = perStageGet f h := by
  cases g <;> cases h <;> first | rfl | exact absurd rfl hne

/-! ### Timer readings -/

theorem reading_lt (s : State) : s.reading < 2 ^ s.par.wT.val := Nat.mod_lt _ (Nat.two_pow_pos _)

theorem drawn_cases (s : State) :
    (∃ r rs, s.readings = r :: rs ∧ s.drawn = { s with readings := rs }) ∨
    (s.readings = [] ∧ s.drawn = { s with draws := s.draws + 1 }) := by
  cases h : s.readings with
  | nil => exact .inr ⟨rfl, by simp [State.drawn, h]⟩
  | cons r rs => exact .inl ⟨r, rs, rfl, by simp [State.drawn, h]⟩

/-- A reading depends on the listed readings, the draw counter and the timer's width alone. -/
theorem reading_congr {s t : State} (hr : s.readings = t.readings) (hd : s.draws = t.draws) (hp : s.par = t.par) :
    s.reading = t.reading := by
  simp [State.reading, hr, hd, hp]

theorem drawn_readings_congr {s t : State} (hr : s.readings = t.readings) : s.drawn.readings = t.drawn.readings := by
  unfold State.drawn; rw [hr]; split <;> simp_all

theorem drawn_draws_congr {s t : State} (hr : s.readings = t.readings) (hd : s.draws = t.draws) :
    s.drawn.draws = t.drawn.draws := by
  unfold State.drawn; rw [hr]; split <;> simp_all

/-! ### Clock -/

/-- What `elapsed()` leaves, in one record: the reading is used up and `S.t0` is never above it. -/
theorem afterElapsed_eq (s : State) :
    afterElapsed s = { s.drawn with t0 := if s.reading < s.t0 then s.reading else s.t0 } := by
  unfold afterElapsed
  split
  · rfl
  · conv_rhs => rw [← drawn_t0 s]

theorem afterElapsed_t0 (s : State) : (afterElapsed s).t0 = if s.reading < s.t0 then s.reading else s.t0 := by
  rw [afterElapsed_eq]

/-- A timed step either is not due, or does its action and resets the Clock (R123). -/
theorem timedStep_cases (g : TimedStage) (act : State → State) (s : State) :
    ((elapsedTime s : Int) ≤ perStageGet s.rate g ∧ timedStep g act s = afterElapsed s) ∨
    (perStageGet s.rate g < (elapsedTime s : Int) ∧ timedStep g act s = clockReset (act (afterElapsed s))) := by
  unfold timedStep
  split
  · exact .inr ⟨‹_›, rfl⟩
  · exact .inl ⟨by omega, rfl⟩

/-! ### Arithmetic -/

theorem range_congr {s t : State} (h1 : s.minLimit = t.minLimit) (h2 : s.maxLimit = t.maxLimit) : s.range = t.range := by
  simp [State.range, h1, h2]

theorem pct_nonneg (s : State) (p : Nat) (h : s.minLimit ≤ s.maxLimit) : 0 ≤ s.pct p := by
  have : 0 ≤ (p : Int) * s.range := Int.mul_nonneg (by omega) (by unfold State.range; omega)
  unfold State.pct; omega

theorem pct_congr {s t : State} (p : Nat) (h1 : s.minLimit = t.minLimit) (h2 : s.maxLimit = t.maxLimit) :
    s.pct p = t.pct p := by
  simp [State.pct, range_congr h1 h2]

/-! ### Envelope -/

/-- An easing call either reaches the minimum and ends the ramp, or lowers the value and stays above it (R124). -/
theorem ease_cases (s : State) :
    (s.currentValue - s.pct easePct ≤ s.minLimit ∧
      ease s = { s with currentValue := s.minLimit, easing := false }) ∨
    (s.minLimit < s.currentValue - s.pct easePct ∧
      ease s = { s with currentValue := s.currentValue - s.pct easePct }) := by
  by_cases h : s.currentValue - s.pct easePct ≤ s.minLimit
  · exact .inl ⟨h, by simp only [ease, easeReached, h, decide_true, if_true]⟩
  · exact .inr ⟨by omega, by simp only [ease, easeReached, h, decide_false, Bool.false_eq_true, if_false]⟩

/-- Everything an ADVANCE can do (R122). -/
theorem advance_cases (s : State) :
    (s.easing = true ∧ advance s = ease s) ∨
    (s.easing = false ∧ (s.stage = .idle ∨ s.stage = .sustain) ∧ advance s = s) ∨
    (s.easing = false ∧ s.stage = .attack ∧ advance s = timedStep .A attackAct s) ∨
    (s.easing = false ∧ s.stage = .decay ∧ advance s = timedStep .D decayAct s) ∨
    (s.easing = false ∧ s.stage = .release ∧ advance s = timedStep .R releaseAct s) := by
  unfold advance stageLogic
  cases s.easing <;> cases s.stage <;> simp

/-! ### Codec -/

theorem codecInput_le (x : Int) : codecInput x ≤ 4095 := by
  unfold codecInput clamp vMax; omega

theorem magnitude_eq (v : Nat) : magnitude v = if 2048 < v then v else 2 * v := by
  unfold magnitude gainDivisor gainThreshold; split <;> omega

theorem magnitude_le (x : Int) : magnitude (codecInput x) ≤ 4096 := by
  have := codecInput_le x
  rw [magnitude_eq]; split <;> omega

theorem encodeChanged_iff (s : State) (c : Channel) (x : Int) :
    encodeChanged s c x = true ↔ perChannelGet s.last c ≠ some (magnitude (codecInput x)) := by
  simp [encodeChanged, changedFlag]

/-- After an encode the channel's entry is the value's magnitude, changed or not (R174). -/
theorem encodeCache_last_same (s : State) (c : Channel) (x : Int) :
    perChannelGet (encodeCache s c x).last c = some (magnitude (codecInput x)) := by
  unfold encodeCache
  split
  · simp
  · have h := mt (encodeChanged_iff s c x).mpr ‹_›
    exact Decidable.of_not_not h

theorem encodeCache_last_other (s : State) {c d : Channel} (x : Int) (h : d ≠ c) :
    perChannelGet (encodeCache s c x).last d = perChannelGet s.last d := by
  unfold encodeCache
  split
  · exact perChannelGet_set_other _ _ h
  · rfl

/-! ### Transport -/

/-- Any events of one chip leave the other chip's lines alone. -/
theorem applyEvent_get_other (pin : PerChip Pins) (e : Event) {j : Chip}
    (h : ∀ line level, e ≠ .pin j line level) : perChipGet (applyEvent pin e) j = perChipGet pin j := by
  cases e with
  | pin k line level =>
    exact perChipGet_set_other _ _ (fun hj => h line level (by rw [hj]))
  | settle k => rfl

/-- One bit on the wire leaves the clock low and the bit on DATA. -/
theorem bitEvents_foldl (k : Chip) (b : Bool) (pin : PerChip Pins) :
    (bitEvents k b).foldl applyEvent pin = perChipSet pin k { perChipGet pin k with data := b, clk := false } := by
  simp [bitEvents, applyEvent, pinsSet]

/-- Several bits on the wire leave the clock low and the last bit on DATA (R191). -/
theorem bitEvents_flatMap_foldl (k : Chip) (l : List Bool) (b : Bool) (pin : PerChip Pins) :
    ((l ++ [b]).flatMap (bitEvents k)).foldl applyEvent pin =
      perChipSet pin k { perChipGet pin k with data := b, clk := false } := by
  induction l generalizing pin with
  | nil => simp [bitEvents_foldl]
  | cons a l ih =>
    simp only [List.cons_append, List.flatMap_cons, List.foldl_append, bitEvents_foldl]
    rw [ih]; simp

/-- What a transmission leaves on the lines (R190, R191). -/
theorem transmit_pin (k : Chip) (w : FrameWord) (s : State) :
    (transmit k w s).pin = perChipSet s.pin k
      { cs := true, clk := false, data := w.getLsbD 0
        latch := if perChipGet s.par.latchPresent k then true else (perChipGet s.pin k).latch } := by
  have hb : frameBits w = ((List.range 15).map (frameBit w)) ++ [w.getLsbD 0] := by
    simp [frameBits, frameBit, List.range, List.range.loop]
  simp only [transmit, perform_pin, transmission, List.foldl_append, hb, bitEvents_flatMap_foldl]
  by_cases h : perChipGet s.par.latchPresent k <;> simp [latchEvents, h, applyEvent, pinsSet]

/-! ### Driver -/

/-- Everything a DAC write can do (R210). -/
theorem dacWrite_cases (c : Channel) (x : Int) (s : State) :
    (perChannelGet s.last c = some (magnitude (codecInput x)) ∧ dacWrite c x s = s) ∨
    (perChannelGet s.last c ≠ some (magnitude (codecInput x)) ∧
      dacWrite c x s = transmit (s.route c).chip (encodedWord s c x)
        { s with last := perChannelSet s.last c (some (magnitude (codecInput x))) }) := by
  by_cases h : encodeChanged s c x = true
  · exact .inr ⟨(encodeChanged_iff s c x).mp h, by simp [dacWrite, encodeCache, h]⟩
  · exact .inl ⟨Decidable.of_not_not (mt (encodeChanged_iff s c x).mpr h), by simp [dacWrite, encodeCache, h]⟩

/-! ### The result port is never read -/

theorem drawn_returning (s : State) (r : Result) : (s.returning r).drawn = s.drawn.returning r := by
  cases h : s.readings <;> simp [State.drawn, State.returning, h]

theorem clockReset_returning (s : State) (r : Result) : clockReset (s.returning r) = (clockReset s).returning r := by
  unfold clockReset; rw [drawn_returning]; rfl

theorem timedStep_returning (g : TimedStage) (act : State → State) (s : State) (r : Result)
    (h : ∀ u : State, act (u.returning r) = (act u).returning r) :
    timedStep g act (s.returning r) = (timedStep g act s).returning r := by
  have ha : afterElapsed (s.returning r) = (afterElapsed s).returning r := by
    unfold afterElapsed; rw [drawn_returning, apply_ite (fun x : State => x.returning r)]; rfl
  unfold timedStep
  rw [ha, h, clockReset_returning, apply_ite (fun x : State => x.returning r)]; rfl

theorem advance_returning (s : State) (r : Result) : advance (s.returning r) = (advance s).returning r := by
  have h1 : ∀ u : State, attackAct (u.returning r) = (attackAct u).returning r := by
    intro u; unfold attackAct; rw [apply_ite (fun x : State => x.returning r)]; rfl
  have h2 : ∀ u : State, decayAct (u.returning r) = (decayAct u).returning r := by
    intro u; unfold decayAct; rw [apply_ite (fun x : State => x.returning r)]; rfl
  have h3 : ∀ u : State, releaseAct (u.returning r) = (releaseAct u).returning r := by
    intro u; unfold releaseAct; rw [apply_ite (fun x : State => x.returning r)]; rfl
  unfold advance stageLogic
  simp only [returning_easing, returning_stage, timedStep_returning _ _ _ _ h1, timedStep_returning _ _ _ _ h2,
    timedStep_returning _ _ _ _ h3]
  rw [apply_ite (fun x : State => x.returning r)]
  congr 1
  · unfold ease; rw [apply_ite (fun x : State => x.returning r)]; rfl
  · split <;> rfl

theorem dacWrite_returning (c : Channel) (x : Int) (s : State) (r : Result) :
    dacWrite c x (s.returning r) = (dacWrite c x s).returning r := by
  unfold dacWrite
  have hc : encodeChanged (s.returning r) c x = encodeChanged s c x := rfl
  rw [hc]
  cases h : encodeChanged s c x <;> simp [encodeCache, hc, h]
  simp [transmit, State.perform, State.returning, encodedWord, State.route]

/-! ### Operand codes -/

theorem gateOfSel_eq_none_iff (g : SelCode) : gateOfSel g = none ↔ g = 0b11 := by
  revert g; decide

theorem stageOfSel_eq_none_iff (sel : SelCode) : stageOfSel sel = none ↔ sel = 0b11 := by
  revert sel; decide

end Sys2Proof.Machine
end

