-- ==== Sys2Proof/Laws/Configuration.lean ====
section
/-! SUPPORT. What CHECK_CONFIG accepts, in the terms of Safety, and the invariant under a change of the model's own
fields. -/

namespace Sys2Proof.Machine

open Sys2Proof.Safety

/-- CHECK_CONFIG accepts exactly the legal configurations (R261). -/
theorem checkConfig_iff (cfg : Configuration) : checkConfig cfg = true ↔ LegalConfiguration cfg := by
  simp only [checkConfig, limitsLegal, stepsLegal, paramsLegal, chanMapInjective, Bool.and_eq_true, decide_eq_true_eq]
  constructor
  · rintro ⟨⟨⟨h1, h2, h3⟩, h4⟩, h5, h6⟩; exact ⟨h1, ⟨h2, h3⟩, h4, h5, h6⟩
  · rintro ⟨h1, ⟨h2, h3⟩, h4, h5, h6⟩; exact ⟨⟨⟨h1, h2, h3⟩, h4⟩, h5, h6⟩

/-- The invariant looks at the envelope's registers, the cache, the lines, the parameters and the width of `S.t0`
alone. -/
theorem inv_congr {s t : State} (h : Safety.Inv s) (minLimit : t.minLimit = s.minLimit)
    (maxLimit : t.maxLimit = s.maxLimit) (sustainLevel : t.sustainLevel = s.sustainLevel) (stage : t.stage = s.stage)
    (currentValue : t.currentValue = s.currentValue) (easing : t.easing = s.easing) (t0 : t.t0 < 2 ^ s.par.wT.val)
    (last : t.last = s.last) (pin : t.pin = s.pin) (par : t.par = s.par) : Safety.Inv t := by
  obtain ⟨h1, h2, h3, h4, h5, h6, h7, h8, h9, h10, h11, h12, h13⟩ := h
  constructor <;> simp only [minLimit, maxLimit, sustainLevel, stage, currentValue, easing, last, pin, par] <;> assumption

end Sys2Proof.Machine
end

