-- ==== Sys2Proof/Laws/Decode.lean ====
section
/-! SUPPORT. The command word's fields, and what each decoding form does with the words the encoder builds. -/

namespace Sys2Proof

/-! ### The command word's fields -/

@[simp] theorem opField_commandWord (op : BitVec 4) (sel : SelCode) (ch : BitVec 2) :
    opField (commandWord op sel ch) = op := by
  apply BitVec.eq_of_getLsbD_eq
  intro i hi
  simp only [opField, commandWord, BitVec.getLsbD_append, BitVec.getLsbD_extractLsb']
  interval_cases i <;> simp

@[simp] theorem selField_commandWord (op : BitVec 4) (sel : SelCode) (ch : BitVec 2) :
    selField (commandWord op sel ch) = sel := by
  apply BitVec.eq_of_getLsbD_eq
  intro i hi
  simp only [selField, commandWord, BitVec.getLsbD_append, BitVec.getLsbD_extractLsb']
  interval_cases i <;> simp

@[simp] theorem chField_commandWord (op : BitVec 4) (sel : SelCode) (ch : BitVec 2) :
    chField (commandWord op sel ch) = ch := by
  apply BitVec.eq_of_getLsbD_eq
  intro i hi
  simp only [chField, commandWord, BitVec.getLsbD_append, BitVec.getLsbD_extractLsb']
  interval_cases i <;> simp

@[simp] theorem zField_commandWord (op : BitVec 4) (sel : SelCode) (ch : BitVec 2) :
    zField (commandWord op sel ch) = 0#8 := by
  apply BitVec.eq_of_getLsbD_eq
  intro i hi
  simp only [zField, commandWord, BitVec.getLsbD_append, BitVec.getLsbD_extractLsb']
  interval_cases i <;> simp

/-- Every command word is its four fields in order (R80). -/
theorem fields_append (w : CommandWord) : opField w ++ selField w ++ chField w ++ zField w = w := by
  apply BitVec.eq_of_getLsbD_eq
  intro i hi
  simp only [opField, selField, chField, zField, BitVec.getLsbD_append, BitVec.getLsbD_extractLsb']
  have : i < 16 := hi
  interval_cases i <;> simp

theorem opField_toNat (w : CommandWord) : (opField w).toNat = w.toNat / 4096 := by
  have := w.isLt
  simp [opField, BitVec.extractLsb'_toNat, Nat.shiftRight_eq_div_pow]; omega

theorem selField_toNat (w : CommandWord) : (selField w).toNat = w.toNat / 1024 % 4 := by
  simp [selField, BitVec.extractLsb'_toNat, Nat.shiftRight_eq_div_pow]

theorem chField_toNat (w : CommandWord) : (chField w).toNat = w.toNat / 256 % 4 := by
  simp [chField, BitVec.extractLsb'_toNat, Nat.shiftRight_eq_div_pow]

theorem zField_toNat (w : CommandWord) : (zField w).toNat = w.toNat % 256 := by
  simp [zField, BitVec.extractLsb'_toNat]

/-- A word whose `Z` field is zero is the command word of its other fields (R88). -/
theorem commandWord_fields (w : CommandWord) (h : zField w = 0#8) :
    commandWord (opField w) (selField w) (chField w) = w := by
  have := fields_append w
  rw [h] at this
  exact this

/-! ### Channels and chips in the `CH` field -/

@[simp] theorem channelCode_toFin (c : Channel) : (channelCode c).toFin = c := rfl

@[simp] theorem channelCode_of_toFin (b : BitVec 2) : channelCode b.toFin = b := rfl

theorem chipCode_getLsbD_one (k : Chip) : (chipCode k).getLsbD 1 = false := by
  revert k; decide

theorem chipCode_getLsbD_zero (k : Chip) : (if (chipCode k).getLsbD 0 then (1 : Chip) else 0) = k := by
  revert k; decide

/-! ### What each decoding form does -/

/-- The forms of R84 and R86 on the words the encoder builds. -/
theorem decodePlain_commandWord (op : BitVec 4) (i : Instr) : decodePlain (commandWord op 0#2 0#2) i = .ok i := by
  simp [decodePlain]

theorem decodeOnChannel_commandWord (nch : Nat) (op : BitVec 4) (c : Channel) (i : Channel → Instr) :
    decodeOnChannel nch (commandWord op 0#2 (channelCode c)) i =
      if channelLegal nch c then .ok (i c) else .error .channelOutOfRange := by
  simp [decodeOnChannel]

theorem decodeOnChip_commandWord (op : BitVec 4) (k : Chip) (i : Chip → Instr) :
    decodeOnChip (commandWord op 0#2 (chipCode k)) i = .ok (i k) := by
  unfold decodeOnChip
  rw [selField_commandWord, zField_commandWord, chField_commandWord,
    if_pos ⟨rfl, rfl, chipCode_getLsbD_one k⟩, chipCode_getLsbD_zero]

theorem decodeOnSel_commandWord (op : BitVec 4) (sel : SelCode) (i : SelCode → Instr) :
    decodeOnSel (commandWord op sel 0#2) i = if selLegal sel then .ok (i sel) else .error .reservedCode := by
  simp [decodeOnSel]

end Sys2Proof
end

