-- ==== Sys2Proof/Laws/PerInstr.lean ====
section
/-! SUPPORT. The per-instruction family `OpcodeRow`: the encoder's word of an operation matches its own row of
opcode_table.json (`word &&& mask = match`). -/

namespace Sys2Proof.Laws.OpcodeRow

/-- The `mask` and `match` of an operation's row of opcode_table.json. -/
def row : Instr → CommandWord × CommandWord
  | .clkReset => (0xFFFF, 0x1000)
  | .clkElapsed => (0xFFFF, 0x2000)
  | .gateOn => (0xFFFF, 0x3000)
  | .gateOff => (0xFFFF, 0x4000)
  | .advance => (0xFFFF, 0x5000)
  | .dacEncode _ _ => (0xFCFF, 0x6000)
  | .dacTransmit _ _ => (0xFEFF, 0x7000)
  | .dacWrite _ _ => (0xFCFF, 0x8000)
  | .tick _ => (0xF3FF, 0x9000)
  | .setRate _ _ => (0xF3FF, 0xA000)
  | .setStep _ _ => (0xF3FF, 0xB000)
  | .readEnv => (0xFFFF, 0xC000)

/-- The word of `i` matches the row of `i`. -/
def Statement (i : Instr) : Prop := (encode i).word &&& (row i).1 = (row i).2

theorem clkReset : Statement .clkReset := by unfold Statement; decide

theorem clkElapsed : Statement .clkElapsed := by unfold Statement; decide

theorem gateOn : Statement .gateOn := by unfold Statement; decide

theorem gateOff : Statement .gateOff := by unfold Statement; decide

theorem advance : Statement .advance := by unfold Statement; decide

theorem dacEncode (c : Channel) (v : Int) : Statement (.dacEncode c v) := by
  revert c
  show ∀ c, commandWord 0x6 0#2 (channelCode c) &&& 0xFCFF = 0x6000
  decide

theorem dacTransmit (k : Chip) (w : FrameWord) : Statement (.dacTransmit k w) := by
  revert k
  show ∀ k, commandWord 0x7 0#2 (chipCode k) &&& 0xFEFF = 0x7000
  decide

theorem dacWrite (c : Channel) (v : Int) : Statement (.dacWrite c v) := by
  revert c
  show ∀ c, commandWord 0x8 0#2 (channelCode c) &&& 0xFCFF = 0x8000
  decide

theorem tick (g : SelCode) : Statement (.tick g) := by
  revert g
  show ∀ g, commandWord 0x9 g 0#2 &&& 0xF3FF = 0x9000
  decide

theorem setRate (sel : SelCode) (r : Int) : Statement (.setRate sel r) := by
  revert sel
  show ∀ sel, commandWord 0xA sel 0#2 &&& 0xF3FF = 0xA000
  decide

theorem setStep (sel : SelCode) (p : Int) : Statement (.setStep sel p) := by
  revert sel
  show ∀ sel, commandWord 0xB sel 0#2 &&& 0xF3FF = 0xB000
  decide

theorem readEnv : Statement .readEnv := by unfold Statement; decide

end Sys2Proof.Laws.OpcodeRow
end

