-- ==== Sys2Proof/Tests/Slice0.lean ====
section
/-! SUPPORT. Tests with expected results from spec/95_test_vectors.md (the vector's name stands beside each) or worked
out by hand from the rules, and for every statement with hypotheses a theorem that meets them all. -/

namespace Sys2Proof.Tests

open Sys2Proof.Machine Sys2Proof.Safety

/-! ### Small states -/

/-- The configured block of the vectors in a given envelope state, with the timer readings to come. -/
def env (stage : Stage) (value : Int) (easing : Bool) (t0 : Nat) (readings : List Nat) : State :=
  { State.reset with stage := stage, currentValue := value, easing := easing, t0 := t0, readings := readings }

/-- The same with the rates all `r` and the steps all `p`. -/
def timed (r : Int) (p : Nat) (stage : Stage) (value : Int) (t0 : Nat) (readings : List Nat) : State :=
  { env stage value false t0 readings with rate := ⟨r, r, r⟩, step := ⟨p, p, p⟩ }

/-- A state with one waiting input. -/
def waiting (h : HostInput) : State := { State.reset with inbox := [h] }

/-- `i` completes on `s` and `p` holds of the state it leaves. -/
def ran (i : Instr) (s : State) (p : State → Bool) : Bool :=
  match exec i s with
  | .next t => p t
  | .fault _ => false
  | .refused _ => false

/-- Stage, value, easing and the Clock's reference in one comparison. -/
def envIs (stage : Stage) (value : Int) (easing : Bool) (t0 : Nat) (t : State) : Bool :=
  decide (t.stage = stage ∧ t.currentValue = value ∧ t.easing = easing ∧ t.t0 = t0)

/-- The word decodes, with the operand inputs given, to `i`. -/
def reads (nch : Nat) (p : Packet) (i : Instr) : Bool :=
  match decode nch p with
  | .ok j => decide (j = i)
  | .error _ => false

/-- The word is refused for the reason given. -/
def refuses (nch : Nat) (p : Packet) (r : Reason) : Bool :=
  match decode nch p with
  | .ok _ => false
  | .error q => decide (q = r)

/-! ### WellFormed refuses each ill-formed operand -/

theorem test_wellFormed_accepts : (Instr.setStep 0b10 5).WellFormed 4 ∧ (Instr.dacWrite 3 (-5)).WellFormed 4 := by decide
theorem test_wellFormed_sel_tick : ¬ (Instr.tick 0b11).WellFormed 4 := by decide
theorem test_wellFormed_sel_setRate : ¬ (Instr.setRate 0b11 5).WellFormed 4 := by decide
theorem test_wellFormed_sel_setStep : ¬ (Instr.setStep 0b11 5).WellFormed 4 := by decide
theorem test_wellFormed_step : ¬ (Instr.setStep 0b10 (-1)).WellFormed 4 := by decide
theorem test_wellFormed_channel_encode : ¬ (Instr.dacEncode 3 0).WellFormed 3 := by decide
theorem test_wellFormed_channel_write : ¬ (Instr.dacWrite 2 0).WellFormed 2 := by decide

/-! ### Decoding: one word per constructor, bit by bit as `OP SEL CH Z` (R80, R81), and the refusals of 95 section 2.9 -/

theorem test_decode_clkReset : reads 4 ⟨0b0001_00_00_00000000, 0, 0⟩ .clkReset = true := by decide
theorem test_decode_clkElapsed : reads 4 ⟨0b0010_00_00_00000000, 0, 0⟩ .clkElapsed = true := by decide
theorem test_decode_gateOn : reads 4 ⟨0b0011_00_00_00000000, 0, 0⟩ .gateOn = true := by decide
theorem test_decode_gateOff : reads 4 ⟨0b0100_00_00_00000000, 0, 0⟩ .gateOff = true := by decide
theorem test_decode_advance : reads 4 ⟨0b0101_00_00_00000000, 0, 0⟩ .advance = true := by decide
theorem test_decode_dacEncode : reads 4 ⟨0b0110_00_01_00000000, 2500, 0⟩ (.dacEncode 1 2500) = true := by decide
theorem test_decode_dacTransmit :
    reads 4 ⟨0b0111_00_01_00000000, 0, 0x1898⟩ (.dacTransmit 1 0x1898) = true := by decide
theorem test_decode_dacWrite : reads 4 ⟨0b1000_00_11_00000000, -5, 0⟩ (.dacWrite 3 (-5)) = true := by decide
theorem test_decode_tick : reads 4 ⟨0b1001_01_00_00000000, 0, 0⟩ (.tick 0b01) = true := by decide
theorem test_decode_setRate : reads 4 ⟨0b1010_10_00_00000000, -1, 0⟩ (.setRate 0b10 (-1)) = true := by decide
theorem test_decode_setStep : reads 4 ⟨0b1011_01_00_00000000, 0, 0⟩ (.setStep 0b01 0) = true := by decide
theorem test_decode_readEnv : reads 4 ⟨0b1100_00_00_00000000, 0, 0⟩ .readEnv = true := by decide

theorem test_decode_reservedOpcode :
    ([0x0000, 0xD000, 0xE000, 0xF000, 0xDC01].all fun w => refuses 4 ⟨w, 0, 0⟩ .reservedOpcode) = true := by decide
theorem test_decode_reservedField :
    ([0x1001, 0x1400, 0x3100, 0x5080, 0x6400, 0x7200, 0x7400, 0x9100, 0x9C01, 0x9801, 0xC100].all
      fun w => refuses 4 ⟨w, 0, 0⟩ .reservedField) = true := by decide
theorem test_decode_reservedCode :
    ([0x9C00, 0xAC00, 0xBC00].all fun w => refuses 4 ⟨w, 5, 0⟩ .reservedCode) = true := by decide
theorem test_decode_channelOutOfRange :
    refuses 3 ⟨0x6300, 0, 0⟩ .channelOutOfRange = true ∧ reads 3 ⟨0x6200, 0, 0⟩ (.dacEncode 2 0) = true := by decide
/-- The decoder passes a negative step on; SET_STEP refuses it (CF8). -/
theorem test_decode_negativeStep : reads 4 ⟨0xB000, -1, 0⟩ (.setStep 0b00 (-1)) = true := by decide

/-- No word matches two rows of opcode_table.json. -/
theorem test_rows_disjoint :
    [Instr.clkReset, .clkElapsed, .gateOn, .gateOff, .advance, .dacEncode 0 0, .dacTransmit 0 0, .dacWrite 0 0, .tick 0,
      .setRate 0 0, .setStep 0 0, .readEnv].Pairwise (fun i j =>
        (Laws.OpcodeRow.row i).2 &&& (Laws.OpcodeRow.row j).1 ≠ (Laws.OpcodeRow.row j).2 &&& (Laws.OpcodeRow.row i).1) := by
  decide
theorem test_tableWord : decodeTableWord 16 0x7100 = some (.dacTransmit 1 0) ∧ decodeTableWord 16 0x9C00 = none := by
  decide
/-- W3: the frame's bits, index 0 first. -/
theorem test_frameBits : frameBits 0x99C4 =
    [true, false, false, true, true, false, false, true, true, true, false, false, false, true, false, false] := by decide
theorem test_frameFields : DacFrame.ofWord 0x99C4 = ⟨true, false, false, true, 2500⟩ := by decide

/-! ### Clock -/

theorem test_CK1 : ran .clkReset (env .idle 0 false 5 [900]) (fun t => t.t0 = 900) = true := by decide
theorem test_CK2 : ran .clkElapsed (env .idle 0 false 100 [111])
    (fun t => t.t0 = 100 ∧ t.result = .elapsed 11) = true := by decide
theorem test_CK7 : ran .clkElapsed (env .idle 0 false 200 [199])
    (fun t => t.t0 = 199 ∧ t.result = .elapsed 0) = true := by decide

/-! ### Envelope -/

theorem test_GT1 : ran .gateOn (env .idle 0 false 0 [50]) (envIs .attack 0 false 50) = true := by decide
theorem test_GT3 : ran .gateOn (env .release 1200 false 0 [70]) (envIs .attack 1200 true 70) = true := by decide
theorem test_GT7 : ran .gateOff (env .idle 0 false 0 [110]) (envIs .release 0 false 110) = true := by decide
theorem test_GT9 : ran .gateOff (env .attack 1800 true 0 [130]) (envIs .release 1800 true 130) = true := by decide
theorem test_AV2 : ran .advance (timed 10 1 .attack 0 100 [111, 112]) (envIs .attack 40 false 112) = true := by decide
theorem test_AV11 : ran .advance (timed 10 5 .release 150 0 [20, 20]) (envIs .idle 0 false 20) = true := by decide
theorem test_CF2 : ran (.setRate 0b01 20) State.reset (fun t => t.rate = ⟨-1, 20, -1⟩) = true := by decide
theorem test_CF4 : ran (.setRate 0b11 5) State.reset
    (fun t => t.rate = ⟨-1, -1, -1⟩ ∧ t.result = .refused .reservedCode ∧ t.refused = true) = true := by decide
theorem test_CF7 : ran (.setStep 0b10 5) State.reset (fun t => t.step = ⟨25, 25, 5⟩) = true := by decide
theorem test_CF9 : ran (.setStep 0b11 (-1)) State.reset (fun t => t.result = .refused .reservedCode) = true := by decide
theorem test_CF11 : ran .readEnv { env .idle 1000 false 0 [] with minLimit := 1000, maxLimit := 5000 }
    (fun t => t.result = .envelope 0 1000 false (mkRat 1 4)) = true := by decide
theorem test_CF13 : ran .readEnv { env .release 1 false 0 [] with maxLimit := 3 }
    (fun t => t.result = .envelope 4 1 false (mkRat 1 3)) = true := by decide

/-! ### Codec, transport and driver -/

theorem test_W3 : ran (.dacEncode 1 2500) State.reset
    (fun t => t.result = .encoded 0x99C4 true ∧ t.last.ch1 = some 2500) = true := by decide
/-- CD4's first value: 2048 mV has magnitude 4096 and field 0. -/
theorem test_CD4 : ran (.dacEncode 2 2048) State.reset
    (fun t => t.result = .encoded 0x3000 true ∧ t.last.ch2 = some 4096) = true := by decide
theorem test_T1 : ran (.dacTransmit 0 0x99C4) State.reset (fun t => t.trace.length = 53 ∧
    t.trace.take 5 = [.pin 0 .cs false, .pin 0 .data true, .pin 0 .clk true, .pin 0 .clk false, .pin 0 .data false] ∧
    t.trace.drop 49 = [.pin 0 .cs true, .pin 0 .latch false, .pin 0 .latch true, .settle 0]) = true := by decide
theorem test_T2 : ran (.dacTransmit 1 0x3000) State.reset (fun t => t.trace.length = 51 ∧
    t.trace.drop 49 = [.pin 1 .cs true, .settle 1] ∧ t.pin.chip0 = Pins.rest) = true := by decide
theorem test_DW2 : ran (.dacWrite 0 1000) { State.reset with last := ⟨some 2000, none, none, none⟩ }
    (fun t => t.trace = []) = true := by decide
theorem test_DW3 : ran (.dacWrite 3 3000) State.reset
    (fun t => t.trace = transmission 1 0x9BB8 false ∧ t.last.ch3 = some 3000) = true := by decide
theorem test_DW4 : ran (.tick 0b01) (env .idle 0 false 0 [0, 0, 0])
    (fun t => envIs .attack 1000 false 0 t ∧ t.trace = transmission 0 0x37D0 true ∧ t.last.ch0 = some 2000) = true := by
  decide
/-- P2, tick 5: gate rose over 2600 mV eases at once. -/
theorem test_P2_retrigger : ran (.tick 0b01) (env .release 2600 false 0 [0])
    (fun t => envIs .attack 2000 true 0 t ∧ t.trace = transmission 0 0x3FA0 true) = true := by decide

/-! ### Configuration refusals (95 section 2.9), one for each of (a) to (e) -/

theorem test_config_accepts : checkConfig Configuration.default = true := by decide
theorem test_config_smallest : checkConfig { Configuration.default with maxLimit := 1, sustainLevel := 1 } = true := by
  decide
theorem test_config_range : checkConfig { Configuration.default with minLimit := 100, maxLimit := 100 } = false := by decide
theorem test_config_sustain_high : checkConfig { Configuration.default with sustainLevel := 4001 } = false := by decide
theorem test_config_sustain_low : checkConfig { Configuration.default with sustainLevel := -1 } = false := by decide
theorem test_config_step : checkConfig { Configuration.default with step := ⟨25, -2, 25⟩ } = false := by decide
theorem test_config_channels : checkConfig { Configuration.default with par := { Params.default with nch := 5 } } = false := by
  decide
theorem test_config_envChannel :
    checkConfig { Configuration.default with par := { Params.default with nch := 2, envChannel := 2 } } = false := by decide
theorem test_config_map : checkConfig { Configuration.default with par :=
    { Params.default with chanMap := ⟨⟨0, .A⟩, ⟨0, .A⟩, ⟨1, .A⟩, ⟨1, .B⟩⟩ } } = false := by decide

/-! ### Every statement's hypotheses are met -/

theorem test_default_legal : LegalConfiguration Configuration.default :=
  ⟨by decide, by decide, by decide, by decide, by decide⟩

theorem test_hyp_DecodeOfEncodeIsTheOperation :
    (Instr.dacWrite 3 (-5)).WellFormed 4 ∧ (Instr.tick 0b10).WellFormed 1 := by decide

/-- The chain's clauses at their boundaries: opcodes 0, 1, 12 and 13, `CH[1]`, `SEL = 11`, and `CH = NCH`. -/
theorem test_hyp_DecoderRefusesByTheFirstReason :
    refuses 2 ⟨0x0FFF, 0, 0⟩ .reservedOpcode = true ∧ refuses 2 ⟨0xD000, 0, 0⟩ .reservedOpcode = true ∧
    refuses 2 ⟨0x7200, 0, 0⟩ .reservedField = true ∧ refuses 2 ⟨0x9C00, 0, 0⟩ .reservedCode = true ∧
    refuses 2 ⟨0x8200, 0, 0⟩ .channelOutOfRange = true ∧ reads 2 ⟨0x8100, 0, 0⟩ (.dacWrite 1 0) = true ∧
    reads 2 ⟨0x1000, 0, 0⟩ .clkReset = true ∧ reads 2 ⟨0xC000, 0, 0⟩ .readEnv = true := by decide

theorem test_hyp_FrameWordAndFieldsAgree : (0 : Nat) < 16 ∧ (15 : Nat) < 16 := by decide

theorem test_hyp_StepRunsTheDecodedCommand : ∃ (s : State) (p : Packet) (rs : List Nat) (rest : List HostInput) (i : Instr),
    s.inbox = .command p rs :: rest ∧ decode s.par.nch p = .ok i :=
  ⟨waiting (.command ⟨0x3000, 0, 0⟩ [7]), ⟨0x3000, 0, 0⟩, [7], [], .gateOn, rfl, rfl⟩

theorem test_hyp_StepRefusesAnUndecodableCommand :
    ∃ (s : State) (p : Packet) (rs : List Nat) (rest : List HostInput) (r : Reason),
      s.inbox = .command p rs :: rest ∧ decode s.par.nch p = .error r :=
  ⟨waiting (.command ⟨0xD000, 0, 0⟩ []), ⟨0xD000, 0, 0⟩, [], [], .reservedOpcode, rfl, rfl⟩

theorem test_hyp_StepWithNoInputChangesNothing : State.reset.inbox = [] := by decide

/-- Both clauses: a legal configuration waits, and an illegal one. -/
theorem test_hyp_ConfigurationResetsEveryElement :
    ((waiting (.configure Configuration.default [990, 1])).inbox = [.configure Configuration.default [990, 1]] ∧
      LegalConfiguration Configuration.default) ∧
    ¬ LegalConfiguration { Configuration.default with maxLimit := 0 } :=
  ⟨⟨rfl, test_default_legal⟩, fun h => absurd h.range (by decide)⟩

theorem test_hyp_ConfigurationEstablishesTheInvariant :
    ∃ (s t : State) (cfg : Configuration) (rs : List Nat) (rest : List HostInput),
      s.inbox = .configure cfg rs :: rest ∧ LegalConfiguration cfg ∧ step s = .next t :=
  ⟨waiting (.configure Configuration.default [990]), _, Configuration.default, [990], [], rfl, test_default_legal, rfl⟩

/-- Right after the configuration, and after a write on channel 0 and a TICK, on channel 1. -/
theorem test_hyp_FirstWriteAfterConfigurationTransmits :
    ∃ (s t u : State) (cfg : Configuration) (rs : List Nat) (rest : List HostInput) (l : List Instr) (c : Channel),
      s.inbox = .configure cfg rs :: rest ∧ step s = .next t ∧ c.val < cfg.par.nch ∧ l ≠ [] ∧
      (∀ i ∈ l, (∀ x, i ≠ .dacEncode c x) ∧ (∀ x, i ≠ .dacWrite c x) ∧ (c = cfg.par.envChannel → ∀ g, i ≠ .tick g)) ∧
      execAll [] t = .next t ∧ execAll l t = .next u :=
  ⟨waiting (.configure Configuration.default [990]), _, _, Configuration.default, [990], [], [.dacWrite 0 7, .tick 0b00], 1,
    rfl, rfl, by decide, by decide, by simp [Configuration.default, Params.default], rfl, rfl⟩

theorem test_hyp_SampleTakesAFreshReading :
    (env .idle 0 false 0 [4294967297]).readings = 4294967297 :: [] ∧ State.reset.readings = [] := by decide

/-- The two clauses at the boundary: one below `S.t0`, and equal to it (CK3). -/
theorem test_hyp_ClkElapsedReturnsTheTimeSinceReset :
    (env .idle 0 false 100 [99]).reading < (env .idle 0 false 100 [99]).t0 ∧
    (env .idle 0 false 100 [100]).t0 ≤ (env .idle 0 false 100 [100]).reading := by decide

/-- EA1's fourth call stays above the minimum; EA4's second call reaches it exactly. -/
theorem test_hyp_AdvanceWhileEasingRampsToMinimum :
    ((env .attack 1200 true 0 []).easing = true ∧
      (0 : Int) < (env .attack 1200 true 0 []).currentValue - 15 * (4000 - 0) / 100) ∧
    ((env .attack 600 true 0 []).currentValue - 15 * (4000 - 0) / 100 ≤ (0 : Int)) := by decide

theorem test_hyp_AdvanceHoldsInSustainAndIdle :
    (env .sustain 1000 false 7 []).easing = false ∧ (env .sustain 1000 false 7 []).stage = .sustain ∧
    (env .idle 0 false 7 []).easing = false ∧ (env .idle 0 false 7 []).stage = .idle := by decide

/-- AV1 (no step at `e = rate`), AV2 (a step) and AV3 (a step that meets the maximum exactly). -/
theorem test_hyp_AttackTakesATimedStepUp :
    ran .advance (timed 10 1 .attack 0 100 [110]) (envIs .attack 0 false 100) = true ∧
    ran .advance (timed 10 1 .attack 0 100 [111, 112]) (envIs .attack 40 false 112) = true ∧
    ran .advance (timed 10 1 .attack 3960 0 [20, 20]) (envIs .decay 4000 false 20) = true := by decide

/-- No step at `e = rate`, AV10 (a step) and AV8 (a step that meets the sustain level exactly). -/
theorem test_hyp_DecayTakesATimedStepDown :
    ran .advance (timed 10 5 .decay 3000 0 [10]) (envIs .decay 3000 false 0) = true ∧
    ran .advance (timed 10 5 .decay 3000 0 [20, 20]) (envIs .decay 2800 false 20) = true ∧
    ran .advance (timed 10 5 .decay 1200 0 [20, 20]) (envIs .sustain 1000 false 20) = true := by decide

/-- AV13 (no step), W2's first call (a step) and W2's last (a step that meets the minimum exactly). -/
theorem test_hyp_ReleaseTakesATimedStepDown :
    ran .advance (timed 10 5 .release 1000 0 [5]) (envIs .release 1000 false 0) = true ∧
    ran .advance (timed 10 5 .release 1000 0 [11, 11]) (envIs .release 800 false 11) = true ∧
    ran .advance (timed 10 5 .release 200 44 [55, 55]) (envIs .idle 0 false 55) = true := by decide

/-- AV16 and its likes for a negative rate in each stage; AV17 for rate 0. -/
theorem test_hyp_UnsetRateStepsOnEveryAdvance :
    ran .advance (timed (-1) 25 .attack 0 50 [50, 50]) (envIs .attack 1000 false 50) = true ∧
    ran .advance (timed (-1) 25 .decay 4000 50 [50, 50]) (envIs .decay 3000 false 50) = true ∧
    ran .advance (timed (-1) 25 .release 500 50 [3, 4]) (envIs .idle 0 false 4) = true ∧
    ran .advance (timed 0 25 .attack 0 50 [50]) (envIs .attack 0 false 50) = true := by decide

theorem test_hyp_StageMovesOnlyByTheTransitionTable :
    (∃ t, exec .advance (timed 10 5 .release 150 0 [20, 20]) = .next t) ∧
    (∃ t, exec (.tick 0b11) State.reset = .next t) := ⟨⟨_, rfl⟩, ⟨_, rfl⟩⟩

/-- The premise on TICK holds of State.reset. -/
theorem test_hyp_StageMoves_channel : ∀ g, Instr.tick 0b10 = .tick g → State.reset.par.envChannel.val < State.reset.par.nch := by
  decide

theorem test_hyp_SetStepWritesOneStep : (0b10 : SelCode) ≠ 0b11 ∧ (-1 : Int) < 0 := by decide

theorem test_hyp_ReadEnvReturnsTheEnvelope : State.reset.minLimit < State.reset.maxLimit := by decide

theorem test_hyp_ValueNeverLeavesTheLimits : ∃ (i : Instr) (s t : State), s.minLimit ≤ s.sustainLevel ∧
    s.sustainLevel ≤ s.maxLimit ∧ s.minLimit ≤ s.currentValue ∧ s.currentValue ≤ s.maxLimit ∧ exec i s = .next t :=
  ⟨.advance, timed 10 1 .attack 3990 0 [20, 20], _, by decide, by decide, by decide, by decide, rfl⟩

theorem test_hyp_EasingStepIsAtMostFifteenPercent : ∃ s t : State, s.easing = true ∧ s.minLimit < s.currentValue ∧
    s.minLimit < s.maxLimit ∧ exec .advance s = .next t :=
  ⟨env .attack 200 true 0 [], _, by decide, by decide, by decide, rfl⟩

/-- One ADVANCE short of the end, and at it: from 1200 mV with `q = 600` the ramp lasts two calls. -/
theorem test_hyp_EasingLastsTheCeilingOfItsHeight :
    (∃ t, execAll [.gateOn, .advance] (env .attack 1200 true 0 [1]) = .next t ∧ t.easing = true) ∧
    (∃ t, execAll [.advance, .gateOff, .advance] (env .attack 1200 true 0 [1]) = .next t ∧ t.easing = false) ∧
    (∀ i ∈ [Instr.advance, .gateOff, .advance], i = .gateOn ∨ i = .gateOff ∨ i = .advance) ∧
    (0 : Int) < 15 * (4000 - 0) / 100 := ⟨⟨_, rfl, rfl⟩, ⟨_, rfl, rfl⟩, by decide, by decide⟩

/-- EA6. -/
theorem test_hyp_EasingStallsWhenFifteenPercentIsZero : ∃ (i : Instr) (s t : State), s.easing = true ∧
    s.minLimit < s.currentValue ∧ 15 * (s.maxLimit - s.minLimit) / 100 = 0 ∧ exec i s = .next t :=
  ⟨.advance, { env .attack 5 true 0 [] with maxLimit := 6 }, _, by decide, by decide, by decide, rfl⟩

/-- AV5 and its likes in Decay and Release. -/
theorem test_hyp_ZeroDeltaFreezesTheStage :
    ran .advance (timed 10 0 .attack 0 0 [20, 21]) (envIs .attack 0 false 21) = true ∧
    ran .advance (timed 10 0 .decay 1001 0 [20, 21]) (envIs .decay 1001 false 21) = true ∧
    ran .advance (timed 10 0 .release 1 0 [20, 21]) (envIs .release 1 false 21) = true := by decide

/-- Each clause: an entry equal to the magnitude, an EMPTY one, and a channel that does not exist. -/
theorem test_hyp_DacEncodeBuildsTheFrame :
    (4 : Nat) ≤ Params.default.nch ∧ (3 : Channel).val < State.reset.par.nch ∧
    perChannelGet State.reset.last 3 ≠ some 0 ∧
    perChannelGet (⟨some 2200, none, none, none⟩ : PerChannel (Option Nat)) 0 = some 2200 ∧
    (3 : Nat) ≤ (3 : Channel).val := by decide

/-- 0, 2047, 2048, 2049 and 4095 mV, as the table of 95 section 2.6 gives them. -/
theorem test_hyp_CodecMapsEveryValue :
    ran (.dacEncode 0 0) State.reset (fun t => t.result = .encoded 0x3000 true) = true ∧
    ran (.dacEncode 0 2047) State.reset (fun t => t.result = .encoded 0x3FFE true) = true ∧
    ran (.dacEncode 0 2048) State.reset (fun t => t.result = .encoded 0x3000 true) = true ∧
    ran (.dacEncode 0 2049) State.reset (fun t => t.result = .encoded 0x1801 true) = true ∧
    ran (.dacEncode 0 4095) State.reset (fun t => t.result = .encoded 0x1FFF true) = true := by decide

theorem test_hyp_FrameWordDependsOnOperandsOnly : ∃ (s1 s2 t1 t2 : State) (w1 w2 : FrameWord) (b1 b2 : Bool),
    s1 ≠ s2 ∧ s1.par = s2.par ∧ exec (.dacEncode 0 7) s1 = .next t1 ∧ exec (.dacEncode 0 7) s2 = .next t2 ∧
      t1.result = .encoded w1 b1 ∧ t2.result = .encoded w2 b2 :=
  ⟨State.reset, env .sustain 1000 false 9 [], _, _, _, _, _, _, by decide, rfl, rfl, rfl, rfl, rfl⟩

theorem test_hyp_SecondEqualEncodeIsSuppressed :
    ∃ (c : Channel) (x : Int) (s t : State), c.val < s.par.nch ∧ exec (.dacEncode c x) s = .next t :=
  ⟨1, 2500, State.reset, _, by decide, rfl⟩

theorem test_hyp_GainCollisionIsSuppressed :
    ∃ (c : Channel) (h : Nat) (s : State) (a b : Int), 1025 ≤ h ∧ h ≤ 2047 ∧
      (a = 2 * h ∧ b = h ∨ a = h ∧ b = 2 * h) ∧ c.val < s.par.nch :=
  ⟨2, 1100, State.reset, 2200, 1100, by decide, by decide, by decide, by decide⟩

theorem test_hyp_CacheIsWrittenOnlyByTheCodec :
    (∃ t, exec (.dacWrite 2 9) State.reset = .next t) ∧ (∃ t, exec .readEnv State.reset = .next t) :=
  ⟨⟨_, rfl⟩, ⟨_, rfl⟩⟩

theorem test_hyp_ReceiverRecoversExactlyTheFramesSent :
    ∃ (i : Instr) (s t : State), exec i s = .next t ∧ ∀ g, i ≠ .tick g :=
  ⟨.dacWrite 2 2048, State.reset, _, rfl, by decide⟩

theorem test_hyp_TraceOnlyGrowsAndOnlyByTransmission :
    ∃ (i : Instr) (s t : State), exec i s = .next t ∧ t.trace ≠ s.trace :=
  ⟨.dacTransmit 0 0, State.reset, _, rfl, by decide⟩

/-- DW1 and DW2 for the two cases of a channel that exists, and one that does not. -/
theorem test_hyp_DacWriteIsEncodeThenTransmitIfChanged :
    (0 : Channel).val < State.reset.par.nch ∧
    ran (.dacEncode 0 1000) State.reset (fun t => t.result = .encoded 0x37D0 true) = true ∧
    ran (.dacEncode 0 1000) { State.reset with last := ⟨some 2000, none, none, none⟩ }
      (fun t => t.result = .encoded 0x37D0 false) = true ∧
    ran (.dacWrite 3 0) { State.reset with par := { Params.default with nch := 3 } }
      (fun t => t.result = .refused .channelOutOfRange) = true := by decide

theorem test_hyp_TickIsGateThenAdvanceThenWrite : State.reset.par.envChannel.val < State.reset.par.nch := by decide

/-- The boundary: the envelope's channel is the first one that does not exist. -/
theorem test_hyp_TickWithoutAChannelIsRefusedWhole :
    ran (.tick 0b01) { State.reset with par := { Params.default with nch := 2, envChannel := 2 } }
      (fun t => t.result = .refused .channelOutOfRange ∧ t.stage = .idle) = true := by decide

theorem test_hyp_RealisationParametersEnterNoOperation :
    ∃ t, exec (.tick 0b01) (env .idle 0 false 0 [0, 0, 0]) = .next t ∧ t.trace ≠ [] := ⟨_, rfl, by decide⟩

/-- 18 bits hold the intermediates of State.reset, of which 25 * 4000 is the largest, and 17 do not. -/
theorem test_hyp_ValueStaysInTheValueWidth :
    (∀ x ∈ envelopeIntermediates State.reset, -(2 ^ 18) ≤ 2 * x ∧ 2 * x < 2 ^ 18) ∧
    ¬ (∀ x ∈ envelopeIntermediates State.reset, -(2 ^ 17) ≤ 2 * x ∧ 2 * x < 2 ^ 17) := by decide

theorem test_reset_widthHolds : WidthHolds State.reset :=
  show ∀ x ∈ envelopeIntermediates State.reset, -(2 ^ 32) ≤ 2 * x ∧ 2 * x < 2 ^ 32 by decide

theorem test_hyp_OnlyOperationsWithoutMeaningAreRefused :
    State.reset.par.envChannel.val < State.reset.par.nch ∧ (Instr.setStep 0b00 0).WellFormed State.reset.par.nch ∧
    ¬ (Instr.setStep 0b00 (-1)).WellFormed State.reset.par.nch ∧
    ran (.setStep 0b00 (-1)) State.reset (fun t => t.result = .refused .illegalOperand) = true := by decide

theorem test_hyp_OnlyConfigurationWritesItsRegisters :
    (∃ t, exec (.setRate 0b01 20) State.reset = .next t ∧ t.rate ≠ State.reset.rate) ∧
    (∃ t, exec (.setStep 0b01 20) State.reset = .next t ∧ t.step ≠ State.reset.step) ∧
    (∃ t, exec (.setRate 0b01 20) { State.reset with refused := true } = .next t) :=
  ⟨⟨_, rfl, by decide⟩, ⟨_, rfl, by decide⟩, ⟨_, rfl⟩⟩

theorem test_hyp_ClockAndEnvelopeWritersAreTheListedOnes :
    (∃ t, exec .clkReset (env .idle 0 false 5 [900]) = .next t ∧ t.t0 ≠ 5) ∧
    (∃ t, exec .advance (env .attack 1200 true 0 []) = .next t ∧ t.currentValue ≠ 1200) ∧
    (∃ t, exec .advance (env .attack 600 true 0 []) = .next t ∧ t.easing ≠ true) :=
  ⟨⟨_, rfl, by decide⟩, ⟨_, rfl, by decide⟩, ⟨_, rfl, by decide⟩⟩

/-- A state away from reset meets the invariant, with easing on and a cache entry held, and its next command runs. -/
def busy : State :=
  { env .release 1800 true 7 [] with
    last := ⟨some 3600, none, none, none⟩, inbox := [.command ⟨0x9000, 0, 0⟩ [9, 9]] }

theorem test_busy_inv : Safety.Inv busy where
  range := by decide
  sustain := by decide
  value := by decide
  sustainHolds := by decide
  idleAtMin := by decide
  easingAbove := by decide
  easingStage := by decide
  cache := by intro c m; fin_cases c <;> simp [busy, perChannelGet]; omega
  cacheExists := by decide
  clock := by decide
  linesAtRest := by decide
  channels := by decide
  injective := by decide

theorem test_hyp_EveryStepKeepsTheInvariant : ∃ s t : State, Safety.Inv s ∧ step s = .next t :=
  ⟨busy, _, test_busy_inv, rfl⟩

theorem test_hyp_EnvelopeIgnoresTheWire : ∃ (s1 s2 t1 t2 : State), s1 ≠ s2 ∧ EnvelopeAgree s1 s2 ∧
    exec (.tick 0b10) s1 = .next t1 ∧ exec (.tick 0b10) s2 = .next t2 :=
  ⟨env .attack 1800 true 7 [9, 9], { env .attack 1800 true 7 [9, 9] with last := ⟨some 1, none, none, none⟩ }, _, _,
    by decide, ⟨rfl, rfl, rfl, rfl, rfl, rfl, rfl, rfl, rfl, rfl, rfl, rfl⟩, rfl, rfl⟩

/-- The command that stands for the host's next input runs first after reset (log 2). -/
theorem test_withFetchWord : (match step (State.reset.withFetchWord 16 0x3000) with
    | .next t => envIs .attack 0 false 0 t
    | .fault _ => false
    | .refused _ => false) = true := by decide

end Sys2Proof.Tests
end

section
/-! Proofs about configuration, the block's reset (spec R35, R260, R261). -/

namespace Sys2Proof.Machine

open Sys2Proof.Safety

/-- "Reset Clock" (R101) in one record: it writes `S.t0`, uses up a timer reading, and does nothing else. -/
theorem clockReset_eq (s : State) :
    clockReset s = { s with t0 := s.reading, readings := s.drawn.readings, draws := s.drawn.draws } := by
  apply State.ext_fields <;> simp

/-- A waiting configuration is what the step runs (R217). -/
theorem step_of_configure {s : State} {cfg : Configuration} {rs : List Nat} {rest : List HostInput}
    (h : s.inbox = .configure cfg rs :: rest) : step s = configure cfg { s with inbox := rest, readings := rs } := by
  simp only [step, h]

theorem configure_of_legal {cfg : Configuration} (h : LegalConfiguration cfg) (s : State) :
    configure cfg s = .next (clockReset (configured cfg s)) :=
  if_pos ((checkConfig_iff cfg).mpr h)

theorem configure_of_not_legal {cfg : Configuration} (h : ¬ LegalConfiguration cfg) (s : State) :
    configure cfg s = .refused .invalidConfiguration :=
  if_neg (mt (checkConfig_iff cfg).mp h)

/-- The Clock reading of a configuration depends on the host's side of the state and on the new parameters alone: of
the state before, nothing but the timer readings to come. -/
theorem reading_configured (cfg : Configuration) (s : State) :
    (configured cfg s).reading = State.reading { s with par := cfg.par } :=
  reading_congr rfl rfl rfl

theorem drawn_readings_configured (cfg : Configuration) (s : State) :
    (configured cfg s).drawn.readings = (State.drawn { s with par := cfg.par }).readings :=
  drawn_readings_congr rfl

theorem drawn_draws_configured (cfg : Configuration) (s : State) :
    (configured cfg s).drawn.draws = (State.drawn { s with par := cfg.par }).draws :=
  drawn_draws_congr rfl rfl

/-- Settles O9: CHECK_CONFIG decides between the two clauses, `configured` overwrites every element of the block, and
the Clock reset that follows adds the fresh reading. -/
theorem configurationResetsEveryElement : Obligations.ConfigurationResetsEveryElement := by
  intro s cfg rs rest hin
  rw [step_of_configure hin]
  constructor
  · intro hlegal
    rw [configure_of_legal hlegal, clockReset_eq, reading_configured, drawn_readings_configured,
      drawn_draws_configured]
    rfl
  · intro hillegal
    exact configure_of_not_legal hillegal _

end Sys2Proof.Machine
end

section
/-! Proofs about the Clock (spec R101, R102). -/

namespace Sys2Proof.Machine

/-! ### The two cases of `elapsed()` (R102): the timer has wrapped around below `S.t0`, or it has not -/

theorem elapsedTime_of_lt {s : State} (h : s.reading < s.t0) : elapsedTime s = 0 := if_pos h

theorem elapsedTime_of_le {s : State} (h : s.t0 ≤ s.reading) : elapsedTime s = s.reading - s.t0 :=
  if_neg (Nat.not_lt.mpr h)

/-- Wraparound is an implicit "Reset Clock". -/
theorem afterElapsed_of_lt {s : State} (h : s.reading < s.t0) : afterElapsed s = clockReset s := if_pos h

theorem afterElapsed_of_le {s : State} (h : s.t0 ≤ s.reading) : afterElapsed s = s.drawn :=
  if_neg (Nat.not_lt.mpr h)

/-- A reading is a `u{W_T}`, and so is its distance from an earlier time. -/
theorem reading_sub_le (s : State) (t : Nat) : s.reading - t ≤ 2 ^ s.par.wT.val - 1 :=
  (Nat.sub_le _ t).trans (Nat.le_sub_one_of_lt (reading_lt s))

/-! ### CLK_RESET and CLK_ELAPSED -/

theorem exec_clkReset (s : State) : exec .clkReset s = .next ((clockReset s).returning .none) := rfl

theorem exec_clkElapsed (s : State) :
    exec .clkElapsed s = .next ((afterElapsed s).returning (.elapsed (elapsedTime s))) := rfl

theorem decode_clkReset (nch : Nat) (arg : Int) (frame : FrameWord) :
    decode nch ⟨0x1000, arg, frame⟩ = .ok .clkReset := by
  change decode nch ⟨commandWord 0x1 0#2 0#2, arg, frame⟩ = _
  simp [decode, decodePlain_commandWord]

theorem decode_clkElapsed (nch : Nat) (arg : Int) (frame : FrameWord) :
    decode nch ⟨0x2000, arg, frame⟩ = .ok .clkElapsed := by
  change decode nch ⟨commandWord 0x2 0#2 0#2, arg, frame⟩ = _
  simp [decode, decodePlain_commandWord]

/-- Settles O14: CLK_RESET is "Reset Clock" and returns nothing. -/
theorem clkResetCapturesTheReading : Obligations.ClkResetCapturesTheReading :=
  ⟨decode_clkReset, exec_clkReset⟩

/-- Settles O15: CLK_ELAPSED hands back `elapsed()`, whose two cases are the two clauses. -/
theorem clkElapsedReturnsTheTimeSinceReset : Obligations.ClkElapsedReturnsTheTimeSinceReset := by
  refine ⟨decode_clkElapsed, fun s => ⟨fun hwrap => ?_, fun hle => ⟨?_, reading_sub_le s s.t0⟩⟩⟩
  · rw [exec_clkElapsed, afterElapsed_of_lt hwrap, elapsedTime_of_lt hwrap]
    rfl
  · rw [exec_clkElapsed, afterElapsed_of_le hle, elapsedTime_of_le hle]
    rfl

end Sys2Proof.Machine
end

section
/-! Proofs about the envelope state machine (spec R120–R131, R140–R142). -/

namespace Sys2Proof.Machine

open Sys2Proof.Safety

/-! ### The words of the envelope's operations (R80, R81, R86) -/

theorem decode_gateOn (nch : Nat) (arg : Int) (frame : FrameWord) : decode nch ⟨0x3000, arg, frame⟩ = .ok .gateOn := by
  change decode nch ⟨commandWord 0x3 0#2 0#2, arg, frame⟩ = _
  simp [decode, decodePlain_commandWord]

theorem decode_gateOff (nch : Nat) (arg : Int) (frame : FrameWord) : decode nch ⟨0x4000, arg, frame⟩ = .ok .gateOff := by
  change decode nch ⟨commandWord 0x4 0#2 0#2, arg, frame⟩ = _
  simp [decode, decodePlain_commandWord]

theorem decode_readEnv (nch : Nat) (arg : Int) (frame : FrameWord) : decode nch ⟨0xC000, arg, frame⟩ = .ok .readEnv := by
  change decode nch ⟨commandWord 0xC 0#2 0#2, arg, frame⟩ = _
  simp [decode, decodePlain_commandWord]

theorem decode_setRate (nch : Nat) {sel : SelCode} (hsel : selLegal sel = true) (r : Int) (frame : FrameWord) :
    decode nch ⟨commandWord 0xA sel 0#2, r, frame⟩ = .ok (.setRate sel r) := by
  simp [decode, decodeOnSel_commandWord, hsel]

theorem decode_setStep (nch : Nat) {sel : SelCode} (hsel : selLegal sel = true) (p : Int) (frame : FrameWord) :
    decode nch ⟨commandWord 0xB sel 0#2, p, frame⟩ = .ok (.setStep sel p) := by
  simp [decode, decodeOnSel_commandWord, hsel]

/-! ### What the envelope's operations are -/

theorem exec_gateOn (s : State) : exec .gateOn s = .next ((gateOn s).returning .none) := rfl

theorem exec_gateOff (s : State) : exec .gateOff s = .next ((gateOff s).returning .none) := rfl

theorem exec_advance (s : State) : exec .advance s = .next ((advance s).returning .none) := rfl

theorem exec_readEnv (s : State) :
    exec .readEnv s =
      .next (s.returning (.envelope (stageCode s.stage) s.currentValue s.easing (percentView s))) := rfl

theorem exec_setRate_of_some {sel : SelCode} {g : TimedStage} (hsel : stageOfSel sel = some g) (r : Int) (s : State) :
    exec (.setRate sel r) s = .next (State.returning { s with rate := perStageSet s.rate g r } .none) := by
  simp only [exec, execSetRate, hsel]

theorem exec_setRate_of_none {sel : SelCode} (hsel : stageOfSel sel = none) (r : Int) (s : State) :
    exec (.setRate sel r) s = .next (s.refuse .reservedCode) := by
  simp only [exec, execSetRate, hsel]

theorem exec_setStep_of_some {sel : SelCode} {g : TimedStage} (hsel : stageOfSel sel = some g) (p : Nat) (s : State) :
    exec (.setStep sel p) s = .next (State.returning { s with step := perStageSet s.step g p } .none) := by
  simp [exec, execSetStep, hsel]

theorem exec_setStep_of_none {sel : SelCode} (hsel : stageOfSel sel = none) (p : Int) (s : State) :
    exec (.setStep sel p) s = .next (s.refuse .reservedCode) := by
  simp only [exec, execSetStep, hsel]

theorem exec_setStep_of_neg {sel : SelCode} {g : TimedStage} (hsel : stageOfSel sel = some g) {p : Int} (hp : p < 0)
    (s : State) : exec (.setStep sel p) s = .next (s.refuse .illegalOperand) := by
  simp only [exec, execSetStep, hsel, if_pos hp]

theorem easingAfterGateOn_eq (s : State) :
    easingAfterGateOn s = if s.minLimit < s.currentValue then true else s.easing := by
  unfold easingAfterGateOn
  split <;> simp [*]

/-- `Sample()` writes the two fields the readings come from, and no other. -/
theorem drawn_eq (s : State) : s.drawn = { s with readings := s.drawn.readings, draws := s.drawn.draws } := by
  apply State.ext_fields <;> simp

/-- "Reset Clock" on a state with the readings of `s` takes the reading that `s` would take. -/
theorem clockReset_of_same_readings {s u : State} (hr : u.readings = s.readings) (hd : u.draws = s.draws)
    (hp : u.par = s.par) :
    clockReset u = { u with t0 := s.reading, readings := s.drawn.readings, draws := s.drawn.draws } := by
  rw [clockReset_eq, reading_congr hr hd hp, drawn_readings_congr hr, drawn_draws_congr hr hd]

theorem clockReset_withValue (s : State) (x : Int) :
    clockReset { s with currentValue := x } = { s.drawn with currentValue := x, t0 := s.reading } := by
  rw [drawn_eq s]
  exact clockReset_of_same_readings (s := s) rfl rfl rfl

theorem clockReset_withValueAndStage (s : State) (x : Int) (st : Stage) :
    clockReset { s with currentValue := x, stage := st } =
      { s.drawn with currentValue := x, stage := st, t0 := s.reading } := by
  rw [drawn_eq s]
  exact clockReset_of_same_readings (s := s) rfl rfl rfl

theorem gateOn_eq (s : State) :
    gateOn s = { s.drawn with easing := easingAfterGateOn s, stage := .attack, t0 := s.reading } := by
  rw [drawn_eq s]
  exact clockReset_of_same_readings (s := s) rfl rfl rfl

theorem gateOff_eq (s : State) : gateOff s = { s.drawn with stage := .release, t0 := s.reading } := by
  rw [drawn_eq s]
  exact clockReset_of_same_readings (s := s) rfl rfl rfl

theorem advance_of_easing {s : State} (he : s.easing = true) : advance s = ease s := if_pos he

/-- Without easing, ADVANCE is the dispatch on the stage (R122). -/
theorem advance_of_not_easing {s : State} (he : s.easing = false) : advance s = stageLogic s := by
  simp [advance, he]

theorem advance_of_idle {s : State} (he : s.easing = false) (hs : s.stage = .idle) : advance s = s := by
  simp [advance_of_not_easing he, stageLogic, hs]

theorem advance_of_sustain {s : State} (he : s.easing = false) (hs : s.stage = .sustain) : advance s = s := by
  simp [advance_of_not_easing he, stageLogic, hs]

theorem advance_of_attack {s : State} (he : s.easing = false) (hs : s.stage = .attack) :
    advance s = timedStep .A attackAct s := by
  simp [advance_of_not_easing he, stageLogic, hs]

theorem advance_of_decay {s : State} (he : s.easing = false) (hs : s.stage = .decay) :
    advance s = timedStep .D decayAct s := by
  simp [advance_of_not_easing he, stageLogic, hs]

theorem advance_of_release {s : State} (he : s.easing = false) (hs : s.stage = .release) :
    advance s = timedStep .R releaseAct s := by
  simp [advance_of_not_easing he, stageLogic, hs]

/-! ### The timed step (R123) -/

theorem timedStep_of_le {g : TimedStage} {s : State} (h : (elapsedTime s : Int) ≤ perStageGet s.rate g)
    (act : State → State) : timedStep g act s = afterElapsed s :=
  if_neg (Int.not_lt.mpr h)

theorem timedStep_of_lt {g : TimedStage} {s : State} (h : perStageGet s.rate g < (elapsedTime s : Int))
    (act : State → State) : timedStep g act s = clockReset (act (afterElapsed s)) :=
  if_pos h

@[simp] theorem afterElapsed_pct (s : State) (p : Nat) : (afterElapsed s).pct p = s.pct p :=
  pct_congr p (afterElapsed_minLimit s) (afterElapsed_maxLimit s)

/-! Each stage's action, after the first reading, decides by the registers as they stood before it. -/

theorem attackAct_afterElapsed (s : State) :
    attackAct (afterElapsed s) =
      if s.maxLimit ≤ s.currentValue + s.pct s.step.attack then
        { afterElapsed s with currentValue := s.maxLimit, stage := .decay }
      else { afterElapsed s with currentValue := s.currentValue + s.pct s.step.attack } := by
  simp [attackAct]

theorem decayAct_afterElapsed (s : State) :
    decayAct (afterElapsed s) =
      if s.currentValue - s.pct s.step.decay ≤ s.sustainLevel then
        { afterElapsed s with currentValue := s.sustainLevel, stage := .sustain }
      else { afterElapsed s with currentValue := s.currentValue - s.pct s.step.decay } := by
  simp [decayAct]

theorem releaseAct_afterElapsed (s : State) :
    releaseAct (afterElapsed s) =
      if s.currentValue - s.pct s.step.release ≤ s.minLimit then
        { afterElapsed s with currentValue := s.minLimit, stage := .idle }
      else { afterElapsed s with currentValue := s.currentValue - s.pct s.step.release } := by
  simp [releaseAct]

/-- What an ADVANCE leaves when its stage's step is not due: the first reading taken, nothing returned. -/
def afterFirstReading (s : State) : State :=
  { s.drawn with t0 := if s.reading < s.t0 then s.reading else s.t0, result := .none }

theorem afterElapsed_returning (s : State) : (afterElapsed s).returning .none = afterFirstReading s := by
  rw [afterElapsed_eq]; rfl

/-- An ADVANCE in a timed stage whose action moves the value to `v`, or clamps it to `limit` and goes to the stage
`next` when `a ≤ b`: the shape shared by Attack, Decay and Release (R126, R127, R129). -/
theorem exec_advance_timed {s : State} {g : TimedStage} {act : State → State} {a b v limit : Int} {next : Stage}
    (hadv : advance s = timedStep g act s)
    (hact : act (afterElapsed s) =
      if a ≤ b then { afterElapsed s with currentValue := limit, stage := next }
      else { afterElapsed s with currentValue := v }) :
    ((elapsedTime s : Int) ≤ perStageGet s.rate g → exec .advance s = .next (afterFirstReading s)) ∧
    (perStageGet s.rate g < elapsedTime s → b < a →
      exec .advance s = .next { (afterFirstReading s).drawn with
        currentValue := v, t0 := (afterFirstReading s).reading }) ∧
    (perStageGet s.rate g < elapsedTime s → a ≤ b →
      exec .advance s = .next { (afterFirstReading s).drawn with
        currentValue := limit, stage := next, t0 := (afterFirstReading s).reading }) := by
  rw [exec_advance, hadv]
  refine ⟨fun hnot => ?_, fun hdue hmove => ?_, fun hdue hstop => ?_⟩
  · rw [timedStep_of_le hnot, afterElapsed_returning]
  · rw [timedStep_of_lt hdue, hact, if_neg (Int.not_le.mpr hmove), ← clockReset_returning,
      ← clockReset_withValue, ← afterElapsed_returning]
    rfl
  · rw [timedStep_of_lt hdue, hact, if_pos hstop, ← clockReset_returning, ← clockReset_withValueAndStage,
      ← afterElapsed_returning]
    rfl

/-! ### The stage after an ADVANCE (R125) -/

/-- A timed step moves the stage as its action does, when it is due. -/
theorem timedStep_stage (g : TimedStage) (act : State → State) (s : State) :
    (timedStep g act s).stage =
      if perStageGet s.rate g < (elapsedTime s : Int) then (act (afterElapsed s)).stage else s.stage := by
  rw [timedStep, apply_ite State.stage, clockReset_stage, afterElapsed_stage]

theorem advance_stage (s : State) : (advance s).stage = stageAfterAdvance s := by
  cases he : s.easing with
  | true => simp [advance_of_easing he, stageAfterAdvance, he]
  | false =>
    cases hs : s.stage with
    | idle => simp [advance_of_idle he hs, stageAfterAdvance, he, hs]
    | sustain => simp [advance_of_sustain he hs, stageAfterAdvance, he, hs]
    | attack =>
      simp [advance_of_attack he hs, timedStep_stage, attackAct_afterElapsed, apply_ite State.stage, ite_and,
        perStageGet, stageAfterAdvance, he, hs]
    | decay =>
      simp [advance_of_decay he hs, timedStep_stage, decayAct_afterElapsed, apply_ite State.stage, ite_and,
        perStageGet, stageAfterAdvance, he, hs]
    | release =>
      simp [advance_of_release he hs, timedStep_stage, releaseAct_afterElapsed, apply_ite State.stage, ite_and,
        perStageGet, stageAfterAdvance, he, hs]

theorem tickWork_stage (g : Gate) (s : State) : (tickWork g s).stage = stageAfterAdvance (applyGate g s) := by
  rw [tickWork, dacWrite_stage, advance_stage]

/-! ### The percent view (R142) -/

theorem stageCode_toNat (st : Stage) :
    (stageCode st).toNat = match st with | .idle => 0 | .attack => 1 | .decay => 2 | .sustain => 3 | .release => 4 := by
  cases st <;> rfl

theorem percentView_mul_range {s : State} (h : s.minLimit < s.maxLimit) :
    percentView s * ((s.maxLimit - s.minLimit : Int) : Rat) = (s.currentValue : Rat) := by
  have hrange : ((s.maxLimit - s.minLimit : Int) : Rat) ≠ 0 := Int.cast_ne_zero.mpr (by omega)
  rw [percentView, Rat.divInt_eq_div]
  exact div_mul_cancel₀ _ hrange

/-! ### The obligations -/

/-- Settles O18: the two clauses are the two cases of EASE. -/
theorem advanceWhileEasingRampsToMinimum : Obligations.AdvanceWhileEasingRampsToMinimum := by
  intro s heasing v
  have hv : v = s.currentValue - s.pct easePct := rfl
  rw [exec_advance, advance_of_easing heasing, hv]
  obtain ⟨hreached, hease⟩ | ⟨habove, hease⟩ := ease_cases s <;> rw [hease]
  · exact ⟨fun _ => rfl, fun h => absurd hreached (Int.not_le.mpr h)⟩
  · exact ⟨fun h => absurd habove (Int.not_lt.mpr h), fun _ => rfl⟩

/-- Settles O20: Attack is a timed step that stops at the maximum. -/
theorem attackTakesATimedStepUp : Obligations.AttackTakesATimedStepUp :=
  fun s heasing hstage => exec_advance_timed (advance_of_attack heasing hstage) (attackAct_afterElapsed s)

/-- Settles O21: Decay is a timed step that stops at the sustain level. -/
theorem decayTakesATimedStepDown : Obligations.DecayTakesATimedStepDown :=
  fun s heasing hstage => exec_advance_timed (advance_of_decay heasing hstage) (decayAct_afterElapsed s)

/-- Settles O22: Release is a timed step that stops at the minimum. -/
theorem releaseTakesATimedStepDown : Obligations.ReleaseTakesATimedStepDown :=
  fun s heasing hstage => exec_advance_timed (advance_of_release heasing hstage) (releaseAct_afterElapsed s)

/-- Settles O24: the gate operations and ADVANCE write the stage, alone or within TICK, and every other operation is
built from writes that leave it alone. -/
theorem stageMovesOnlyByTheTransitionTable : Obligations.StageMovesOnlyByTheTransitionTable := by
  intro i s t hchannel h
  cases i with
  | clkReset => cases h; simp
  | clkElapsed => cases h; simp
  | gateOn => cases h; simp
  | gateOff => cases h; simp
  | advance => cases h; exact advance_stage s
  | dacEncode c v =>
    cases h
    split <;> simp
  | dacTransmit k w => cases h; simp
  | dacWrite c v =>
    cases h
    split <;> simp
  | tick g =>
    have hhas : s.hasChannel s.par.envChannel = true := decide_eq_true (hchannel g rfl)
    cases hg : gateOfSel g with
    | none =>
      simp only [exec, execTick, hg] at h
      cases h; simp [hg]
    | some gate =>
      simp only [exec, execTick, hg, hhas, if_true] at h
      cases h; simp [hg, tickWork_stage]
  | setRate sel r =>
    cases h
    split <;> rfl
  | setStep sel p =>
    cases h
    split
    · rfl
    · split <;> rfl
  | readEnv => cases h; rfl

/-- Settles O16: the gate's writes come before its Clock reset, which keeps them. -/
theorem gateOnEntersAttack : Obligations.GateOnEntersAttack := by
  refine ⟨decode_gateOn, fun s => ?_⟩
  rw [exec_gateOn, gateOn_eq, easingAfterGateOn_eq]
  rfl

/-- Settles O17: the Clock reset keeps the stage written before it. -/
theorem gateOffEntersRelease : Obligations.GateOffEntersRelease := by
  refine ⟨decode_gateOff, fun s => ?_⟩
  rw [exec_gateOff, gateOff_eq]
  rfl

/-- Settles O19: outside the timed stages the stage logic is empty. -/
theorem advanceHoldsInSustainAndIdle : Obligations.AdvanceHoldsInSustainAndIdle := by
  intro s heasing hstage
  rw [exec_advance]
  obtain hsustain | hidle := hstage
  · rw [advance_of_sustain heasing hsustain]; rfl
  · rw [advance_of_idle heasing hidle]; rfl

/-- Settles O25: each code selects its own rate, and 11 none. -/
theorem setRateWritesOneRate : Obligations.SetRateWritesOneRate :=
  ⟨fun nch r frame => ⟨decode_setRate nch (sel := 0b00) rfl r frame, decode_setRate nch (sel := 0b01) rfl r frame,
      decode_setRate nch (sel := 0b10) rfl r frame⟩,
    fun r s => ⟨exec_setRate_of_some (g := .A) rfl r s, exec_setRate_of_some (g := .D) rfl r s,
      exec_setRate_of_some (g := .R) rfl r s, exec_setRate_of_none rfl r s⟩⟩

/-- Settles O26: each code selects its own step, 11 is refused before the sign is looked at, and any other code with a
negative step after it. -/
theorem setStepWritesOneStep : Obligations.SetStepWritesOneStep := by
  refine ⟨fun nch p frame => ⟨decode_setStep nch (sel := 0b00) rfl p frame,
      decode_setStep nch (sel := 0b01) rfl p frame, decode_setStep nch (sel := 0b10) rfl p frame⟩,
    fun p s => ⟨exec_setStep_of_some (g := .A) rfl p s, exec_setStep_of_some (g := .D) rfl p s,
      exec_setStep_of_some (g := .R) rfl p s⟩,
    fun p s => exec_setStep_of_none rfl p s, fun sel p s hsel hneg => ?_⟩
  obtain ⟨g, hg⟩ := Option.ne_none_iff_exists'.mp (mt (stageOfSel_eq_none_iff sel).mp hsel)
  exact exec_setStep_of_neg hg hneg s

/-- Settles O27: the stage's code and the percent view are what READ_ENV returns. -/
theorem readEnvReturnsTheEnvelope : Obligations.ReadEnvReturnsTheEnvelope :=
  ⟨decode_readEnv, fun s hrange =>
    ⟨stageCode s.stage, percentView s, stageCode_toNat s.stage, percentView_mul_range hrange, exec_readEnv s⟩⟩

end Sys2Proof.Machine
end

section
/-! Proofs about the DAC value codec (spec R71–R76, R170–R174). -/

namespace Sys2Proof

/-- Putting `b` behind `a` moves `a` up by the width of `b`. -/
theorem toNat_append_eq_add {m n : Nat} (a : BitVec m) (b : BitVec n) :
    (a ++ b).toNat = a.toNat * 2 ^ n + b.toNat := by
  rw [BitVec.toNat_append, ← Nat.shiftLeft_add_eq_or_of_lt b.isLt, Nat.shiftLeft_eq]

/-- `word(f)` by arithmetic: each control bit stands at its own power of two, above the 12-bit field (R71). -/
theorem DacFrame.toWord_toNat (f : DacFrame) :
    f.toWord.toNat = f.channelSelect.toNat * 2 ^ 15 + f.bit1.toNat * 2 ^ 14 + f.gainDisable.toNat * 2 ^ 13 +
      f.powerOn.toNat * 2 ^ 12 + f.field.toNat := by
  simp only [DacFrame.toWord, toNat_append_eq_add, BitVec.toNat_ofBool]
  omega

/-- The words 0x6000 to 0x6300 (R81, R84). -/
theorem decode_dacEncode {nch : Nat} {c : Channel} (hc : c.val < nch) (v : Int) (frame : FrameWord) :
    decode nch ⟨commandWord 0x6 0#2 (channelCode c), v, frame⟩ = .ok (.dacEncode c v) := by
  simp [decode, decodeOnChannel_commandWord, channelLegal, hc]

end Sys2Proof

namespace Sys2Proof.Machine

/-! ### The frame word by arithmetic -/

theorem channelSelectBit_toNat (sub : SubChannel) : (channelSelectBit sub).toNat = if sub = .B then 1 else 0 := by
  cases sub <;> rfl

theorem gainDisableBit_toNat (v : Nat) : (gainDisableBit v).toNat = if 2048 < v then 0 else 1 := by
  unfold gainDisableBit gainThreshold
  split <;> simp [*]

/-- The frame word as R170 computes it: channel select, gain, power-on and the magnitude cut to 12 bits. -/
theorem encodedWord_toNat (s : State) (c : Channel) (x : Int) :
    (encodedWord s c x).toNat = (if (s.route c).sub = .B then 1 else 0) * 2 ^ 15 +
      (if 2048 < codecInput x then 0 else 1) * 2 ^ 13 + 1 * 2 ^ 12 + magnitude (codecInput x) % 4096 := by
  rw [← channelSelectBit_toNat, ← gainDisableBit_toNat]
  simp [encodedWord, DacFrame.toWord_toNat, frameOf, undefinedBit, powerOnBit]

/-! ### The three outcomes of DAC_ENCODE -/

theorem hasChannel_iff (s : State) (c : Channel) : s.hasChannel c = true ↔ c.val < s.par.nch := decide_eq_true_iff

theorem exec_dacEncode_of_lt {s : State} {c : Channel} (hc : c.val < s.par.nch) (x : Int) :
    exec (.dacEncode c x) s =
      .next ((encodeCache s c x).returning (.encoded (encodedWord s c x) (encodeChanged s c x))) :=
  congrArg _ (if_pos ((hasChannel_iff s c).mpr hc))

theorem exec_dacEncode_of_unchanged {s : State} {c : Channel} {x : Int} (hc : c.val < s.par.nch)
    (hlast : perChannelGet s.last c = some (magnitude (codecInput x))) :
    exec (.dacEncode c x) s = .next (s.returning (.encoded (encodedWord s c x) false)) := by
  have hsame : encodeChanged s c x = false := by
    rw [← Bool.not_eq_true, encodeChanged_iff]; exact not_not_intro hlast
  simp [exec_dacEncode_of_lt hc, encodeCache, hsame]

theorem exec_dacEncode_of_changed {s : State} {c : Channel} {x : Int} (hc : c.val < s.par.nch)
    (hlast : perChannelGet s.last c ≠ some (magnitude (codecInput x))) :
    exec (.dacEncode c x) s =
      .next (State.returning { s with last := perChannelSet s.last c (some (magnitude (codecInput x))) }
        (.encoded (encodedWord s c x) true)) := by
  have hchanged : encodeChanged s c x = true := (encodeChanged_iff s c x).mpr hlast
  simp [exec_dacEncode_of_lt hc, encodeCache, hchanged]

theorem exec_dacEncode_of_le {s : State} {c : Channel} (hc : s.par.nch ≤ c.val) (x : Int) :
    exec (.dacEncode c x) s = .next (s.refuse .channelOutOfRange) :=
  congrArg _ (if_neg (mt (hasChannel_iff s c).mp (Nat.not_lt.mpr hc)))

/-- Settles O33: the three clauses are the three outcomes of DAC_ENCODE, whose word is the arithmetic one. -/
theorem dacEncodeBuildsTheFrame : Obligations.DacEncodeBuildsTheFrame := by
  constructor
  · intro nch v frame hnch
    have hword (c : Channel) := decode_dacEncode (c.isLt.trans_le hnch) v frame
    exact ⟨hword 0, hword 1, hword 2, hword 3⟩
  · intro c x s v gd d m chsel w
    have hw : encodedWord s c x = w := by
      rw [← BitVec.setWidth_eq (encodedWord s c x), ← BitVec.ofNat_toNat, encodedWord_toNat]
      rfl
    rw [← hw]
    exact ⟨exec_dacEncode_of_unchanged, exec_dacEncode_of_changed, fun hc => exec_dacEncode_of_le hc x⟩

end Sys2Proof.Machine
end

section
/-! Proofs about the DAC transport (spec R190–R191). -/

namespace Sys2Proof.Machine

open Sys2Proof.Safety

/-- The word `0x7000 | k << 8` carries any frame (R84, R190). -/
theorem decode_dacTransmit (nch : Nat) (k : Chip) (arg : Int) (frame : FrameWord) :
    decode nch ⟨commandWord 0x7 0#2 (chipCode k), arg, frame⟩ = .ok (.dacTransmit k frame) := by
  simp [decode, decodeOnChip_commandWord]

theorem exec_dacTransmit (k : Chip) (w : FrameWord) (s : State) :
    exec (.dacTransmit k w) s = .next ((transmit k w s).returning .none) := rfl

/-- Index `i` of the frame's bits is bit `15 - i` of its word, so the sixteen iterations of R191 are the descending list
of bits written out in `lineSequence`. -/
theorem transmission_eq_lineSequence (k : Chip) (w : FrameWord) (latch : Bool) :
    transmission k w latch = lineSequence k w latch := rfl

/-- Fifty pin events, two more for the latch pulse, and the Settle. -/
theorem lineSequence_length (k : Chip) (w : FrameWord) (latch : Bool) :
    (lineSequence k w latch).length = (if latch then 52 else 50) + 1 := by
  cases latch <;> rfl

/-- A transmission writes the trace and the lines, and nothing else (R190, R191). -/
theorem transmit_eq (k : Chip) (w : FrameWord) (s : State) :
    transmit k w s = { s with
      trace := s.trace ++ lineSequence k w (perChipGet s.par.latchPresent k)
      pin := perChipSet s.pin k
        { cs := true, clk := false, data := w.getLsbD 0
          latch := if perChipGet s.par.latchPresent k then true else (perChipGet s.pin k).latch } } := by
  rw [← transmit_pin, ← transmission_eq_lineSequence]
  rfl

/-- Settles O39: DAC_TRANSMIT is one transmission, whose events are the line sequence. -/
theorem transmitDrivesTheLineSequence : Obligations.TransmitDrivesTheLineSequence := by
  refine ⟨fun nch arg w => ⟨decode_dacTransmit nch 0 arg w, decode_dacTransmit nch 1 arg w⟩,
    fun k w s => ⟨?_, lineSequence_length k w _⟩⟩
  rw [exec_dacTransmit, transmit_eq]
  rfl

end Sys2Proof.Machine
end

section
/-! Proofs about the driver (spec R210–R212). -/

namespace Sys2Proof

/-- The words 0x8000 to 0x8300 (R81, R84). -/
theorem decode_dacWrite {nch : Nat} {c : Channel} (hc : c.val < nch) (v : Int) (frame : FrameWord) :
    decode nch ⟨commandWord 0x8 0#2 (channelCode c), v, frame⟩ = .ok (.dacWrite c v) := by
  simp [decode, decodeOnChannel_commandWord, channelLegal, hc]

/-- The words 0x9000, 0x9400 and 0x9800 (R81, R82). -/
theorem decode_tick (nch : Nat) {g : SelCode} (hg : selLegal g = true) (arg : Int) (frame : FrameWord) :
    decode nch ⟨commandWord 0x9 g 0#2, arg, frame⟩ = .ok (.tick g) := by
  simp [decode, decodeOnSel_commandWord, hg]

end Sys2Proof

namespace Sys2Proof.Machine

/-! ### DAC_WRITE -/

theorem exec_dacWrite_of_lt {s : State} {c : Channel} (hc : c.val < s.par.nch) (x : Int) :
    exec (.dacWrite c x) s = .next ((dacWrite c x s).returning .none) :=
  congrArg _ (if_pos ((hasChannel_iff s c).mpr hc))

theorem exec_dacWrite_of_le {s : State} {c : Channel} (hc : s.par.nch ≤ c.val) (x : Int) :
    exec (.dacWrite c x) s = .next (s.refuse .channelOutOfRange) :=
  congrArg _ (if_neg (mt (hasChannel_iff s c).mp (Nat.not_lt.mpr hc)))

theorem dacWrite_of_changed {s : State} {c : Channel} {x : Int} (h : encodeChanged s c x = true) :
    dacWrite c x s = transmit (s.route c).chip (encodedWord s c x) (encodeCache s c x) := if_pos h

theorem dacWrite_of_unchanged {s : State} {c : Channel} {x : Int} (h : encodeChanged s c x = false) :
    dacWrite c x s = encodeCache s c x := if_neg (Bool.eq_false_iff.mp h)

/-- A transmission passes the result port through unread. -/
theorem transmit_returning (k : Chip) (w : FrameWord) (s : State) (r : Result) :
    transmit k w (s.returning r) = (transmit k w s).returning r := rfl

theorem returning_returning (s : State) (r r' : Result) : (s.returning r).returning r' = s.returning r' := rfl

/-- Settles O42: what DAC_ENCODE hands back stands in the result port, which the transmission does not read. -/
theorem dacWriteIsEncodeThenTransmitIfChanged : Obligations.DacWriteIsEncodeThenTransmitIfChanged := by
  constructor
  · intro nch v frame hnch
    have hword (c : Channel) := decode_dacWrite (c.isLt.trans_le hnch) v frame
    exact ⟨hword 0, hword 1, hword 2, hword 3⟩
  · intro c x s
    refine ⟨fun hc => ⟨_, _, _, exec_dacEncode_of_lt hc x, rfl, fun hchanged => ⟨_, exec_dacTransmit _ _ _, ?_⟩,
      fun hsame => ?_⟩, fun hc => exec_dacWrite_of_le hc x⟩
    · rw [exec_dacWrite_of_lt hc, dacWrite_of_changed hchanged, transmit_returning, returning_returning]
      rfl
    · rw [exec_dacWrite_of_lt hc, dacWrite_of_unchanged hsame]
      rfl

/-! ### TICK -/

theorem exec_tick_of_some {g : SelCode} {gate : Gate} (hg : gateOfSel g = some gate) {s : State}
    (hc : s.par.envChannel.val < s.par.nch) : exec (.tick g) s = .next ((tickWork gate s).returning .none) := by
  simp only [exec, execTick, hg, if_pos ((hasChannel_iff s _).mpr hc)]

theorem exec_tick_of_none {g : SelCode} (hg : gateOfSel g = none) (s : State) :
    exec (.tick g) s = .next (s.refuse .reservedCode) := by
  simp only [exec, execTick, hg]

/-- After its gate operation, whatever that returned, TICK is ADVANCE and then DAC_WRITE of the value left (R212). -/
theorem exec_tick_eq_advance_then_write {g : SelCode} {gate : Gate} (hg : gateOfSel g = some gate) {s : State}
    (hc : s.par.envChannel.val < s.par.nch) (r : Result) :
    ∃ u t, exec .advance ((applyGate gate s).returning r) = .next u ∧
      exec (.dacWrite s.par.envChannel u.currentValue) u = .next t ∧ exec (.tick g) s = .next t := by
  refine ⟨_, _, exec_advance _, exec_dacWrite_of_lt (by simpa using hc) _, ?_⟩
  rw [exec_tick_of_some hg hc, advance_returning, returning_returning, dacWrite_returning, returning_returning]
  rfl

/-- Settles O43: each legal code names its gate operation, and code 00 the one that leaves the state as it is. -/
theorem tickIsGateThenAdvanceThenWrite : Obligations.TickIsGateThenAdvanceThenWrite := by
  refine ⟨fun nch arg frame => ⟨decode_tick nch (g := 0b00) rfl arg frame, decode_tick nch (g := 0b01) rfl arg frame,
    decode_tick nch (g := 0b10) rfl arg frame⟩, fun s hc => ⟨?none, ?rose, ?fell, exec_tick_of_none rfl s⟩⟩
  case none => exact exec_tick_eq_advance_then_write (gate := .none) rfl hc s.result
  case rose =>
    obtain ⟨u, t, hadvance, hwrite, htick⟩ := exec_tick_eq_advance_then_write (g := 0b01) (gate := .rose) rfl hc .none
    exact ⟨_, u, t, exec_gateOn s, hadvance, hwrite, htick⟩
  case fell =>
    obtain ⟨u, t, hadvance, hwrite, htick⟩ := exec_tick_eq_advance_then_write (g := 0b10) (gate := .fell) rfl hc .none
    exact ⟨_, u, t, exec_gateOff s, hadvance, hwrite, htick⟩

end Sys2Proof.Machine
end

section
/-! Proofs about the two encodings: the command word (spec R80–R88) and the frame word (R70–R77). -/

namespace Sys2Proof

open Sys2Proof.Machine

/-! ### The decoding forms, by the values of the fields -/

theorem field_eq_zero_iff {n : Nat} (b : BitVec n) : b = 0#n ↔ b.toNat = 0 := by
  rw [← BitVec.toNat_inj]; simp

theorem selLegal_iff (sel : SelCode) : selLegal sel = true ↔ sel.toNat ≠ 3 := by
  revert sel; decide

theorem channelLegal_iff (nch : Nat) (c : Channel) : channelLegal nch c = true ↔ c.val < nch := decide_eq_true_iff

theorem getLsbD_one_eq_false_iff (b : BitVec 2) : b.getLsbD 1 = false ↔ b.toNat < 2 := by
  revert b; decide

/-- A `CH` field below 2 is the code of the chip its low bit names (R84). -/
theorem chipCode_lowBit {b : BitVec 2} (h : b.toNat < 2) : chipCode (if b.getLsbD 0 then 1 else 0) = b := by
  revert b; decide

theorem decodePlain_eq (w : CommandWord) (i : Instr) :
    decodePlain w i =
      if (selField w).toNat = 0 ∧ (chField w).toNat = 0 ∧ (zField w).toNat = 0 then .ok i
      else .error .reservedField := by
  simp only [decodePlain, field_eq_zero_iff]

theorem decodeOnChannel_eq (nch : Nat) (w : CommandWord) (i : Channel → Instr) :
    decodeOnChannel nch w i =
      if (selField w).toNat = 0 ∧ (zField w).toNat = 0 then
        if (chField w).toNat < nch then .ok (i (chField w).toFin) else .error .channelOutOfRange
      else .error .reservedField := by
  simp only [decodeOnChannel, field_eq_zero_iff, channelLegal_iff, BitVec.val_toFin]

theorem decodeOnChip_eq (w : CommandWord) (i : Chip → Instr) :
    decodeOnChip w i =
      if (selField w).toNat = 0 ∧ (zField w).toNat = 0 ∧ (chField w).toNat < 2 then
        .ok (i (if (chField w).getLsbD 0 then 1 else 0))
      else .error .reservedField := by
  simp only [decodeOnChip, field_eq_zero_iff, getLsbD_one_eq_false_iff]

theorem decodeOnSel_eq (w : CommandWord) (i : SelCode → Instr) :
    decodeOnSel w i =
      if (chField w).toNat = 0 ∧ (zField w).toNat = 0 then
        if (selField w).toNat ≠ 3 then .ok (i (selField w)) else .error .reservedCode
      else .error .reservedField := by
  simp only [decodeOnSel, field_eq_zero_iff, selLegal_iff]

/-! ### Which form each opcode has (R81) -/

/-- How the decoder reads a packet whose opcode is not reserved: in one of the four forms, and the operation it then
builds has the packet's opcode in its own word. -/
inductive Form (nch : Nat) (p : Packet) : Prop where
  | plain (i : Instr) (hop : (opField p.word).toNat ≤ 5 ∨ (opField p.word).toNat = 12)
    (hdecode : decode nch p = decodePlain p.word i)
    (hword : (encode i).word = commandWord (opField p.word) 0#2 0#2)
  | onChannel (i : Channel → Instr) (hop : (opField p.word).toNat = 6 ∨ (opField p.word).toNat = 8)
    (hdecode : decode nch p = decodeOnChannel nch p.word i)
    (hword : ∀ c, (encode (i c)).word = commandWord (opField p.word) 0#2 (channelCode c))
  | onChip (i : Chip → Instr) (hop : (opField p.word).toNat = 7) (hdecode : decode nch p = decodeOnChip p.word i)
    (hword : ∀ k, (encode (i k)).word = commandWord (opField p.word) 0#2 (chipCode k))
  | onSel (i : SelCode → Instr) (hop : 9 ≤ (opField p.word).toNat ∧ (opField p.word).toNat ≤ 11)
    (hdecode : decode nch p = decodeOnSel p.word i)
    (hword : ∀ sel, (encode (i sel)).word = commandWord (opField p.word) sel 0#2)

theorem decode_of_reservedOpcode {nch : Nat} {p : Packet}
    (h : (opField p.word).toNat = 0 ∨ 13 ≤ (opField p.word).toNat) : decode nch p = .error .reservedOpcode := by
  unfold decode
  split
  case h_13 => rfl
  all_goals omega

theorem commandWord_of_opcode {w : CommandWord} {n : Nat} (h : (opField w).toNat = n) (sel : SelCode) (ch : BitVec 2) :
    commandWord (BitVec.ofNat 4 n) sel ch = commandWord (opField w) sel ch := by
  rw [← h, BitVec.ofNat_toNat, BitVec.setWidth_eq]

theorem form_of_opcode (nch : Nat) (p : Packet) (hpos : 0 < (opField p.word).toNat)
    (hlt : (opField p.word).toNat < 13) : Form nch p := by
  interval_cases hop : (opField p.word).toNat
  · exact .plain .clkReset (by simp [hop]) (by simp [decode, hop]) (commandWord_of_opcode hop _ _)
  · exact .plain .clkElapsed (by simp [hop]) (by simp [decode, hop]) (commandWord_of_opcode hop _ _)
  · exact .plain .gateOn (by simp [hop]) (by simp [decode, hop]) (commandWord_of_opcode hop _ _)
  · exact .plain .gateOff (by simp [hop]) (by simp [decode, hop]) (commandWord_of_opcode hop _ _)
  · exact .plain .advance (by simp [hop]) (by simp [decode, hop]) (commandWord_of_opcode hop _ _)
  · exact .onChannel (.dacEncode · p.arg) (by simp [hop]) (by simp [decode, hop])
      (fun _ => commandWord_of_opcode hop _ _)
  · exact .onChip (.dacTransmit · p.frame) (by simp [hop]) (by simp [decode, hop])
      (fun _ => commandWord_of_opcode hop _ _)
  · exact .onChannel (.dacWrite · p.arg) (by simp [hop]) (by simp [decode, hop])
      (fun _ => commandWord_of_opcode hop _ _)
  · exact .onSel .tick (by simp [hop]) (by simp [decode, hop])
      (fun _ => commandWord_of_opcode hop _ _)
  · exact .onSel (.setRate · p.arg) (by simp [hop]) (by simp [decode, hop])
      (fun _ => commandWord_of_opcode hop _ _)
  · exact .onSel (.setStep · p.arg) (by simp [hop]) (by simp [decode, hop])
      (fun _ => commandWord_of_opcode hop _ _)
  · exact .plain .readEnv (by simp [hop]) (by simp [decode, hop]) (commandWord_of_opcode hop _ _)

/-- A word is the command word of its opcode and any fields equal to its own, if `Z` is zero (R88). -/
theorem word_eq_of_fields {w : CommandWord} {sel : SelCode} {ch : BitVec 2} (hsel : (selField w).toNat = sel.toNat)
    (hch : (chField w).toNat = ch.toNat) (hz : (zField w).toNat = 0) : commandWord (opField w) sel ch = w := by
  rw [← BitVec.eq_of_toNat_eq hsel, ← BitVec.eq_of_toNat_eq hch]
  exact commandWord_fields w ((field_eq_zero_iff _).mpr hz)

/-- Settles O1: each form undoes the encoder's word, and well-formedness is what the form itself checks. -/
theorem decodeOfEncodeIsTheOperation : Obligations.DecodeOfEncodeIsTheOperation := by
  intro nch i hwf
  cases i with
  | clkReset => exact decode_clkReset nch 0 0
  | clkElapsed => exact decode_clkElapsed nch 0 0
  | gateOn => exact decode_gateOn nch 0 0
  | gateOff => exact decode_gateOff nch 0 0
  | advance => simp [encode, decode, decodePlain_commandWord]
  | dacEncode c v => exact decode_dacEncode ((channelLegal_iff nch c).mp hwf) v 0
  | dacTransmit k w => exact decode_dacTransmit nch k 0 w
  | dacWrite c v => exact decode_dacWrite ((channelLegal_iff nch c).mp hwf) v 0
  | tick g => exact decode_tick nch hwf 0 0
  | setRate sel r => exact decode_setRate nch hwf r 0
  | setStep sel p => exact decode_setStep nch (Bool.and_eq_true_iff.mp hwf).1 p 0
  | readEnv => exact decode_readEnv nch 0 0

/-- Settles O2: a word with an opcode in use has one of four forms, and each form checks its unused fields first, then
its own code. -/
theorem decoderRefusesByTheFirstReason : Obligations.DecoderRefusesByTheFirstReason := by
  intro nch p op sel ch z
  have hopField : (opField p.word).toNat = op := opField_toNat p.word
  have hselField : (selField p.word).toNat = sel := selField_toNat p.word
  have hchField : (chField p.word).toNat = ch := chField_toNat p.word
  have hzField : (zField p.word).toNat = z := zField_toNat p.word
  clear_value op sel ch z
  subst hopField hselField hchField hzField
  by_cases hreserved : (opField p.word).toNat = 0 ∨ 13 ≤ (opField p.word).toNat
  · rw [if_pos hreserved]
    exact decode_of_reservedOpcode hreserved
  rw [if_neg hreserved]
  obtain ⟨i, hop, hdecode, hword⟩ | ⟨i, hop, hdecode, hword⟩ | ⟨i, hop, hdecode, hword⟩ | ⟨i, hop, hdecode, hword⟩ :=
    form_of_opcode nch p (by omega) (by omega)
  case plain =>
    rw [hdecode, decodePlain_eq]
    by_cases hf : (selField p.word).toNat = 0 ∧ (chField p.word).toNat = 0 ∧ (zField p.word).toNat = 0
    · obtain ⟨hsel, hch, hz⟩ := hf
      rw [if_neg (by omega), if_neg (by omega), if_neg (by omega), if_pos ⟨hsel, hch, hz⟩]
      exact ⟨i, rfl, hword.trans (word_eq_of_fields hsel hch hz)⟩
    · rw [if_pos (by omega), if_neg hf]
  case onChannel =>
    rw [hdecode, decodeOnChannel_eq]
    by_cases hf : (selField p.word).toNat = 0 ∧ (zField p.word).toNat = 0
    · rw [if_neg (by omega), if_neg (by omega), if_pos hf]
      by_cases hch : (chField p.word).toNat < nch
      · rw [if_neg (by omega), if_pos hch]
        exact ⟨_, rfl, (hword _).trans (word_eq_of_fields hf.1 rfl hf.2)⟩
      · rw [if_pos (by omega), if_neg hch]
    · rw [if_pos (by omega), if_neg hf]
  case onChip =>
    rw [hdecode, decodeOnChip_eq]
    by_cases hf : (selField p.word).toNat = 0 ∧ (zField p.word).toNat = 0 ∧ (chField p.word).toNat < 2
    · obtain ⟨hsel, hz, hch⟩ := hf
      rw [if_neg (by omega), if_neg (by omega), if_neg (by omega), if_pos ⟨hsel, hz, hch⟩]
      exact ⟨_, rfl, (hword _).trans (word_eq_of_fields hsel (by rw [chipCode_lowBit hch]) hz)⟩
    · rw [if_pos (by omega), if_neg hf]
  case onSel =>
    rw [hdecode, decodeOnSel_eq]
    by_cases hf : (chField p.word).toNat = 0 ∧ (zField p.word).toNat = 0
    · rw [if_neg (by omega), if_pos hf]
      by_cases hsel : (selField p.word).toNat = 3
      · rw [if_pos hsel, if_neg (not_not_intro hsel)]
      · rw [if_neg hsel, if_neg (by omega), if_pos hsel]
        exact ⟨_, rfl, (hword _).trans (word_eq_of_fields rfl hf.1 hf.2)⟩
    · rw [if_pos (by omega), if_neg hf]

/-- Settles O3: each word has one form, whose fields are legal. -/
theorem sampleWordsDecode : Obligations.SampleWordsDecode :=
  ⟨rfl, rfl, rfl, rfl, rfl, rfl⟩

/-! ### The frame word -/

@[simp] theorem DacFrame.ofWord_toWord (f : DacFrame) : DacFrame.ofWord f.toWord = f := by
  have hfield : f.toWord.extractLsb' 0 12 = f.field := by
    apply BitVec.eq_of_getLsbD_eq
    intro i hi
    simp only [DacFrame.toWord, BitVec.getLsbD_append, BitVec.getLsbD_extractLsb']
    simp [hi]
  rw [DacFrame.ofWord, hfield]
  simp only [DacFrame.toWord, BitVec.getLsbD_append]
  simp

theorem DacFrame.toWord_ofWord (w : FrameWord) : (DacFrame.ofWord w).toWord = w := by
  apply BitVec.eq_of_getLsbD_eq
  intro i hi
  simp only [DacFrame.toWord, DacFrame.ofWord, BitVec.getLsbD_append, BitVec.getLsbD_extractLsb', BitVec.getLsbD_ofBool]
  have : i < 16 := hi
  interval_cases i <;> simp

theorem frameBits_getElem? (w : FrameWord) {i : Nat} (hi : i < 16) : (frameBits w)[i]? = some (w.getLsbD (15 - i)) := by
  simp [frameBits, frameBit, hi]

/-- Settles O4: the word is the concatenation of the fields, and its fields are cut out again at the same places. -/
theorem frameWordAndFieldsAgree : Obligations.FrameWordAndFieldsAgree :=
  ⟨fun f => ⟨DacFrame.ofWord_toWord f, DacFrame.toWord_toNat f⟩, DacFrame.toWord_ofWord,
    fun w _ => frameBits_getElem? w⟩

end Sys2Proof
end

section
/-! What one operation and one step can do (spec R28, R55, R217, R234, R235): the inversion lemma that the proofs about
every operation start from. -/

namespace Sys2Proof.Machine

open Sys2Proof.Safety

/-! ### Which operations have a meaning -/

theorem ne_of_gate {g : SelCode} {gate : Gate} (h : gateOfSel g = some gate) : g ≠ 0b11 :=
  fun hg => by simp [(gateOfSel_eq_none_iff g).mpr hg] at h

theorem selLegal_of_gate {g : SelCode} {gate : Gate} (h : gateOfSel g = some gate) : selLegal g = true :=
  bne_iff_ne.mpr (ne_of_gate h)

theorem selLegal_of_timedStage {sel : SelCode} {g : TimedStage} (h : stageOfSel sel = some g) :
    selLegal sel = true := by
  have hne : sel ≠ 0b11 := fun hsel => by simp [(stageOfSel_eq_none_iff sel).mpr hsel] at h
  exact bne_iff_ne.mpr hne

theorem not_selLegal_of_no_gate {g : SelCode} (h : gateOfSel g = none) : ¬ selLegal g = true := by
  rw [(gateOfSel_eq_none_iff g).mp h]; decide

theorem not_selLegal_of_no_timedStage {sel : SelCode} (h : stageOfSel sel = none) : ¬ selLegal sel = true := by
  rw [(stageOfSel_eq_none_iff sel).mp h]; decide

/-- `i` has a meaning in `s`: it is well formed, and for TICK the channel of its DAC_WRITE exists (R235, log 13). -/
def HasMeaning (s : State) (i : Instr) : Prop :=
  i.WellFormed s.par.nch ∧ ∀ g, i = .tick g → s.par.envChannel.val < s.par.nch

/-- An operation other than TICK has a meaning exactly when it is well formed. -/
theorem hasMeaning_of_not_tick {s : State} {i : Instr} (hi : ∀ g, i ≠ .tick g) (h : i.WellFormed s.par.nch) :
    HasMeaning s i :=
  ⟨h, fun g hg => absurd hg (hi g)⟩

/-! ### What an operation can do -/

theorem exec_tick_of_le {g : SelCode} (hg : g ≠ 0b11) {s : State} (hc : s.par.nch ≤ s.par.envChannel.val) :
    exec (.tick g) s = .next (s.refuse .channelOutOfRange) := by
  obtain ⟨gate, hgate⟩ := Option.ne_none_iff_exists'.mp (mt (gateOfSel_eq_none_iff g).mp hg)
  simp only [exec, execTick, hgate, if_neg (mt (hasChannel_iff s _).mp (Nat.not_lt.mpr hc))]

/-- The state `t` that operation `i` leaves from `s`: one case for the refusals, one for each operation with a
meaning. -/
inductive Ran (s : State) : Instr → State → Prop where
  | refused {i : Instr} {r : Reason} (hmeaning : ¬ HasMeaning s i)
      (hreason : r = .reservedCode ∨ r = .channelOutOfRange ∨ r = .illegalOperand) : Ran s i (s.refuse r)
  | clkReset : Ran s .clkReset ((clockReset s).returning .none)
  | clkElapsed : Ran s .clkElapsed ((afterElapsed s).returning (.elapsed (elapsedTime s)))
  | gateOn : Ran s .gateOn ((gateOn s).returning .none)
  | gateOff : Ran s .gateOff ((gateOff s).returning .none)
  | advance : Ran s .advance ((advance s).returning .none)
  | dacEncode {c : Channel} (hc : c.val < s.par.nch) (x : Int) :
      Ran s (.dacEncode c x) ((encodeCache s c x).returning (.encoded (encodedWord s c x) (encodeChanged s c x)))
  | dacTransmit (k : Chip) (w : FrameWord) : Ran s (.dacTransmit k w) ((transmit k w s).returning .none)
  | dacWrite {c : Channel} (hc : c.val < s.par.nch) (x : Int) : Ran s (.dacWrite c x) ((dacWrite c x s).returning .none)
  | tick {g : SelCode} {gate : Gate} (hg : gateOfSel g = some gate) (hc : s.par.envChannel.val < s.par.nch) :
      Ran s (.tick g) ((tickWork gate s).returning .none)
  | setRate {sel : SelCode} {g : TimedStage} (hg : stageOfSel sel = some g) (r : Int) :
      Ran s (.setRate sel r) (State.returning { s with rate := perStageSet s.rate g r } .none)
  | setStep {sel : SelCode} {g : TimedStage} (hg : stageOfSel sel = some g) (p : Nat) :
      Ran s (.setStep sel p) (State.returning { s with step := perStageSet s.step g p } .none)
  | readEnv :
      Ran s .readEnv (s.returning (.envelope (stageCode s.stage) s.currentValue s.easing (percentView s)))

theorem exec_total (i : Instr) (s : State) : ∃ t, exec i s = .next t := by
  cases i <;> exact ⟨_, rfl⟩

/-- The inversion lemma of `exec`. -/
theorem ran_of_exec {i : Instr} {s t : State} (h : exec i s = .next t) : Ran s i t := by
  cases i with
  | clkReset => cases h; exact .clkReset
  | clkElapsed => cases h; exact .clkElapsed
  | gateOn => cases h; exact .gateOn
  | gateOff => cases h; exact .gateOff
  | advance => cases h; exact .advance
  | dacEncode c x =>
    by_cases hc : c.val < s.par.nch
    · rw [exec_dacEncode_of_lt hc] at h
      cases h; exact .dacEncode hc x
    · rw [exec_dacEncode_of_le (Nat.not_lt.mp hc)] at h
      cases h; exact .refused (fun hm => hc ((channelLegal_iff _ c).mp hm.1)) (.inr (.inl rfl))
  | dacTransmit k w => cases h; exact .dacTransmit k w
  | dacWrite c x =>
    by_cases hc : c.val < s.par.nch
    · rw [exec_dacWrite_of_lt hc] at h
      cases h; exact .dacWrite hc x
    · rw [exec_dacWrite_of_le (Nat.not_lt.mp hc)] at h
      cases h; exact .refused (fun hm => hc ((channelLegal_iff _ c).mp hm.1)) (.inr (.inl rfl))
  | tick g =>
    cases hg : gateOfSel g with
    | none =>
      rw [exec_tick_of_none hg] at h
      cases h; exact .refused (fun hm => not_selLegal_of_no_gate hg hm.1) (.inl rfl)
    | some gate =>
      by_cases hc : s.par.envChannel.val < s.par.nch
      · rw [exec_tick_of_some hg hc] at h
        cases h; exact .tick hg hc
      · rw [exec_tick_of_le (ne_of_gate hg) (Nat.not_lt.mp hc)] at h
        cases h; exact .refused (fun hm => hc (hm.2 g rfl)) (.inr (.inl rfl))
  | setRate sel r =>
    cases hg : stageOfSel sel with
    | none =>
      rw [exec_setRate_of_none hg] at h
      cases h; exact .refused (fun hm => not_selLegal_of_no_timedStage hg hm.1) (.inl rfl)
    | some g =>
      rw [exec_setRate_of_some hg] at h
      cases h; exact .setRate hg r
  | setStep sel p =>
    cases hg : stageOfSel sel with
    | none =>
      rw [exec_setStep_of_none hg] at h
      cases h
      exact .refused (fun hm => not_selLegal_of_no_timedStage hg (Bool.and_eq_true_iff.mp hm.1).1) (.inl rfl)
    | some g =>
      by_cases hp : 0 ≤ p
      · obtain ⟨n, rfl⟩ := Int.eq_ofNat_of_zero_le hp
        rw [exec_setStep_of_some hg] at h
        cases h; exact .setStep hg n
      · rw [exec_setStep_of_neg hg (Int.not_le.mp hp)] at h
        cases h
        exact .refused (fun hm => hp (of_decide_eq_true (Bool.and_eq_true_iff.mp hm.1).2)) (.inr (.inr rfl))
  | readEnv => cases h; exact .readEnv

/-- An operation is refused, and sets only the mark, exactly when it has no meaning. -/
theorem refused_or_hasMeaning {i : Instr} {s t : State} (h : Ran s i t) :
    (¬ HasMeaning s i ∧ ∃ r, t = s.refuse r ∧ (r = .reservedCode ∨ r = .channelOutOfRange ∨ r = .illegalOperand)) ∨
    (HasMeaning s i ∧ t.refused = s.refused ∧ ∀ r, t.result ≠ .refused r) := by
  cases h with
  | refused hmeaning hreason => exact .inl ⟨hmeaning, _, rfl, hreason⟩
  | dacEncode hc => exact .inr ⟨hasMeaning_of_not_tick nofun ((channelLegal_iff _ _).mpr hc), by simp⟩
  | dacWrite hc => exact .inr ⟨hasMeaning_of_not_tick nofun ((channelLegal_iff _ _).mpr hc), by simp⟩
  | tick hg hc => exact .inr ⟨⟨selLegal_of_gate hg, fun _ _ => hc⟩, by simp⟩
  | setRate hg => exact .inr ⟨hasMeaning_of_not_tick nofun (selLegal_of_timedStage hg), by simp⟩
  | setStep hg p =>
    have hlegal : (selLegal _ && stepLegal (p : Int)) = true :=
      Bool.and_eq_true_iff.mpr ⟨selLegal_of_timedStage hg, decide_eq_true (Int.natCast_nonneg p)⟩
    exact .inr ⟨hasMeaning_of_not_tick nofun hlegal, by simp⟩
  | clkReset | clkElapsed | gateOn | gateOff | advance | dacTransmit | readEnv =>
    exact .inr ⟨hasMeaning_of_not_tick nofun rfl, by simp⟩

/-- Settles O47: `exec` answers a next state in every arm. -/
theorem everyOperationCompletes : Obligations.EveryOperationCompletes := exec_total

/-- Settles O44: the channel check of TICK stands before its work. -/
theorem tickWithoutAChannelIsRefusedWhole : Obligations.TickWithoutAChannelIsRefusedWhole :=
  fun _ _ hg hc => exec_tick_of_le hg hc

/-- Settles O48: with the envelope's channel in range, having a meaning is being well formed. -/
theorem onlyOperationsWithoutMeaningAreRefused : Obligations.OnlyOperationsWithoutMeaningAreRefused := by
  intro i s t hchannel h
  have hmeaning : HasMeaning s i ↔ i.WellFormed s.par.nch := ⟨And.left, fun hwf => ⟨hwf, fun _ _ => hchannel⟩⟩
  obtain ⟨hno, hrefused⟩ | ⟨hyes, hclean⟩ := refused_or_hasMeaning (ran_of_exec h)
  · exact ⟨fun hwf => absurd (hmeaning.mpr hwf) hno, fun _ => hrefused⟩
  · exact ⟨fun _ => hclean, fun hill => absurd (hmeaning.mp hyes) hill⟩

/-! ### A step -/

theorem step_of_empty {s : State} (h : s.inbox = []) : step s = .next s := by
  simp only [step, h]

theorem step_of_command {s : State} {p : Packet} {rs : List Nat} {rest : List HostInput}
    (h : s.inbox = .command p rs :: rest) : step s = runCommand p { s with inbox := rest, readings := rs } := by
  simp only [step, h]

theorem runCommand_of_ok {s : State} {p : Packet} {i : Instr} (h : decode s.par.nch p = .ok i) :
    runCommand p s = exec i s := by
  simp only [runCommand, h]

theorem runCommand_of_error {s : State} {p : Packet} {r : Reason} (h : decode s.par.nch p = .error r) :
    runCommand p s = .next (s.refuse r) := by
  simp only [runCommand, h]

/-- A command is refused by the decoder or runs the operation it decodes to (R86). -/
theorem runCommand_cases (p : Packet) (s : State) :
    (∃ r, runCommand p s = .next (s.refuse r)) ∨ ∃ i, runCommand p s = exec i s := by
  cases h : decode s.par.nch p with
  | ok i => exact .inr ⟨i, runCommand_of_ok h⟩
  | error r => exact .inl ⟨r, runCommand_of_error h⟩

/-- Settles O5: the input waiting is a command, and the decoder accepts it. -/
theorem stepRunsTheDecodedCommand : Obligations.StepRunsTheDecodedCommand :=
  fun _ _ _ _ _ hin hdecode => (step_of_command hin).trans (runCommand_of_ok hdecode)

/-- Settles O6: the input waiting is a command, and the decoder refuses it. -/
theorem stepRefusesAnUndecodableCommand : Obligations.StepRefusesAnUndecodableCommand :=
  fun _ _ _ _ _ hin hdecode => (step_of_command hin).trans (runCommand_of_error hdecode)

/-- Settles O7: `step` answers the state itself for an empty inbox. -/
theorem stepWithNoInputChangesNothing : Obligations.StepWithNoInputChangesNothing :=
  fun _ => step_of_empty

/-- Settles O8: of the three inputs a step can find, only a configuration can leave no state. -/
theorem stepStopsOnlyOnARefusedConfiguration : Obligations.StepStopsOnlyOnARefusedConfiguration := by
  intro s
  match hin : s.inbox with
  | [] => exact .inl ⟨s, step_of_empty hin⟩
  | .command p rs :: rest =>
    rw [step_of_command hin]
    obtain ⟨r, hrun⟩ | ⟨i, hrun⟩ := runCommand_cases p { s with inbox := rest, readings := rs }
    · exact .inl ⟨_, hrun⟩
    · exact .inl (hrun ▸ exec_total i _)
  | .configure cfg rs :: rest =>
    rw [step_of_configure hin]
    by_cases hlegal : LegalConfiguration cfg
    · exact .inl ⟨_, configure_of_legal hlegal _⟩
    · exact .inr ⟨configure_of_not_legal hlegal _, cfg, rs, rest, rfl, hlegal⟩

/-- Settles O13: a reading is cut to the timer's width, and one that is listed is used up. -/
theorem sampleTakesAFreshReading : Obligations.SampleTakesAFreshReading := by
  refine fun s => ⟨reading_lt s, fun r rs hlisted => ?_, fun hnone => ?_⟩
  · simp [State.reading, State.drawn, hlisted]
  · simp [State.drawn, hnone]

end Sys2Proof.Machine
end

section
/-! Proofs about the value, easing and the Clock's reference under any operation (spec R54, R124–R131, R143–R146,
R273). -/

namespace Sys2Proof.Machine

open Sys2Proof.Safety

/-! ### The three timed stages as one (R123) -/

/-- The envelope's stage of a stage index. -/
def TimedStage.stage : TimedStage → Stage
  | .A => .attack
  | .D => .decay
  | .R => .release

/-- What the timed step of a stage does between its two readings. -/
def TimedStage.act : TimedStage → State → State
  | .A => attackAct
  | .D => decayAct
  | .R => releaseAct

/-- The value the timed step of a stage moves to, clamped at the stage's end (R126, R127, R129). -/
def TimedStage.target (g : TimedStage) (s : State) : Int :=
  match g with
  | .A => min s.maxLimit (s.currentValue + s.pct s.step.attack)
  | .D => max s.sustainLevel (s.currentValue - s.pct s.step.decay)
  | .R => max s.minLimit (s.currentValue - s.pct s.step.release)

theorem advance_of_timed {s : State} {g : TimedStage} (he : s.easing = false) (hs : s.stage = g.stage) :
    advance s = timedStep g g.act s := by
  cases g with
  | A => exact advance_of_attack he hs
  | D => exact advance_of_decay he hs
  | R => exact advance_of_release he hs

theorem advance_of_resting {s : State} (he : s.easing = false) (hs : s.stage = .idle ∨ s.stage = .sustain) :
    advance s = s :=
  hs.elim (advance_of_idle he) (advance_of_sustain he)

/-- An ADVANCE eases, rests, or is the timed step of one stage. -/
theorem advance_easing_resting_or_timed (s : State) :
    (s.easing = true ∧ advance s = ease s) ∨
    (s.easing = false ∧ (s.stage = .idle ∨ s.stage = .sustain) ∧ advance s = s) ∨
    ∃ g : TimedStage, s.easing = false ∧ s.stage = g.stage ∧ advance s = timedStep g g.act s := by
  obtain h | h | h | h | h := advance_cases s
  · exact .inl h
  · exact .inr (.inl h)
  · exact .inr (.inr ⟨.A, h⟩)
  · exact .inr (.inr ⟨.D, h⟩)
  · exact .inr (.inr ⟨.R, h⟩)

theorem act_reading (g : TimedStage) (s : State) : (g.act s).reading = s.reading := by
  cases g <;> exact reading_congr (by simp [TimedStage.act]) (by simp [TimedStage.act]) (by simp [TimedStage.act])

theorem act_currentValue (g : TimedStage) (s : State) : (g.act s).currentValue = g.target s := by
  cases g with
  | A =>
    simp only [TimedStage.act, TimedStage.target, attackAct, apply_ite State.currentValue, min_def]
  | D =>
    simp only [TimedStage.act, TimedStage.target, decayAct, apply_ite State.currentValue]
    split <;> omega
  | R =>
    simp only [TimedStage.act, TimedStage.target, releaseAct, apply_ite State.currentValue]
    split <;> omega

theorem target_afterElapsed (g : TimedStage) (s : State) : g.target (afterElapsed s) = g.target s := by
  cases g <;> simp [TimedStage.target]

/-! ### The value after an ADVANCE -/

theorem ease_currentValue (s : State) : (ease s).currentValue = max s.minLimit (s.currentValue - s.pct easePct) := by
  obtain ⟨hreached, hease⟩ | ⟨habove, hease⟩ := ease_cases s
  · rw [hease, max_eq_left hreached]
  · rw [hease, max_eq_right habove.le]

theorem timedStep_currentValue (g : TimedStage) (s : State) :
    (timedStep g g.act s).currentValue =
      if perStageGet s.rate g < (elapsedTime s : Int) then g.target s else s.currentValue := by
  rw [timedStep, apply_ite State.currentValue, clockReset_currentValue, act_currentValue, target_afterElapsed,
    afterElapsed_currentValue]

theorem advance_currentValue_cases (s : State) :
    (advance s).currentValue = s.currentValue ∨
    (advance s).currentValue = max s.minLimit (s.currentValue - s.pct easePct) ∨
    ∃ g : TimedStage, (advance s).currentValue = g.target s := by
  obtain ⟨-, h⟩ | ⟨-, -, h⟩ | ⟨g, -, -, h⟩ := advance_easing_resting_or_timed s
  · exact .inr (.inl ((congrArg State.currentValue h).trans (ease_currentValue s)))
  · exact .inl (congrArg State.currentValue h)
  · rw [h, timedStep_currentValue]
    split
    · exact .inr (.inr ⟨g, rfl⟩)
    · exact .inl rfl

/-- ADVANCE keeps the value within the limits (R143). -/
theorem advance_within_limits {s : State} (hsustain : s.minLimit ≤ s.sustainLevel ∧ s.sustainLevel ≤ s.maxLimit)
    (hvalue : s.minLimit ≤ s.currentValue ∧ s.currentValue ≤ s.maxLimit) :
    s.minLimit ≤ (advance s).currentValue ∧ (advance s).currentValue ≤ s.maxLimit := by
  have hpct (p : Nat) : 0 ≤ s.pct p := pct_nonneg s p (by omega)
  obtain h | h | ⟨g, h⟩ := advance_currentValue_cases s <;> rw [h]
  · exact hvalue
  · have := hpct easePct
    omega
  · cases g <;> simp only [TimedStage.target]
    · have := hpct s.step.attack
      omega
    · have := hpct s.step.decay
      omega
    · have := hpct s.step.release
      omega

/-- The value an ADVANCE leaves is one of the intermediates of its computation. -/
theorem advance_currentValue_mem (s : State) : (advance s).currentValue ∈ envelopeIntermediates s := by
  obtain h | h | ⟨g, h⟩ := advance_currentValue_cases s <;> rw [h]
  · simp [envelopeIntermediates]
  · obtain h | h := max_choice s.minLimit (s.currentValue - s.pct easePct) <;> simp [h, envelopeIntermediates]
  · cases g <;> simp only [TimedStage.target]
    · obtain h | h := min_choice s.maxLimit (s.currentValue + s.pct s.step.attack) <;>
        simp [h, envelopeIntermediates]
    · obtain h | h := max_choice s.sustainLevel (s.currentValue - s.pct s.step.decay) <;>
        simp [h, envelopeIntermediates]
    · obtain h | h := max_choice s.minLimit (s.currentValue - s.pct s.step.release) <;>
        simp [h, envelopeIntermediates]

theorem envelopeIntermediates_applyGate (gate : Gate) (s : State) :
    envelopeIntermediates (applyGate gate s) = envelopeIntermediates s := by
  cases gate <;> simp [envelopeIntermediates, State.range, State.pct]

/-! ### The registers after any operation -/

theorem tickWork_currentValue (gate : Gate) (s : State) :
    (tickWork gate s).currentValue = (advance (applyGate gate s)).currentValue := dacWrite_currentValue _ _ _

theorem tickWork_easing (gate : Gate) (s : State) : (tickWork gate s).easing = (advance (applyGate gate s)).easing :=
  dacWrite_easing _ _ _

/-- Only ADVANCE, alone or within TICK, moves the value, and it does so as after some gate operation (R54). -/
theorem ran_currentValue {i : Instr} {s t : State} (h : Ran s i t) :
    t.currentValue = s.currentValue ∨
    (i = .advance ∨ ∃ g, i = .tick g) ∧ ∃ gate, t.currentValue = (advance (applyGate gate s)).currentValue := by
  cases h with
  | advance => exact .inr ⟨.inl rfl, .none, rfl⟩
  | tick => exact .inr ⟨.inr ⟨_, rfl⟩, _, tickWork_currentValue _ s⟩
  | refused | clkReset | clkElapsed | gateOn | gateOff | dacEncode | dacTransmit | dacWrite | setRate | setStep
  | readEnv => exact .inl (by simp)

/-- No operation writes what only a configuration writes (R20, R11). -/
theorem ran_configuration {i : Instr} {s t : State} (h : Ran s i t) :
    t.minLimit = s.minLimit ∧ t.maxLimit = s.maxLimit ∧ t.sustainLevel = s.sustainLevel ∧ t.par = s.par := by
  cases h <;> simp

/-- Settles O49: each clause is a frame of all operations but the one it names. -/
theorem onlyConfigurationWritesItsRegisters : Obligations.OnlyConfigurationWritesItsRegisters := by
  intro i s t h
  have hran := ran_of_exec h
  obtain ⟨hmin, hmax, hsustain, hpar⟩ := ran_configuration hran
  refine ⟨hmin, hmax, hsustain, hpar, ?_⟩
  cases hran with
  | setRate hg r => exact ⟨fun _ => ⟨_, r, rfl⟩, fun hmoved => absurd rfl hmoved, id⟩
  | setStep hg p => exact ⟨fun hmoved => absurd rfl hmoved, fun _ => ⟨_, p, rfl⟩, id⟩
  | refused | clkReset | clkElapsed | gateOn | gateOff | advance | dacEncode | dacTransmit | dacWrite | tick
  | readEnv => simp

/-- Settles O50: every operation that is not named for a register leaves it alone. -/
theorem clockAndEnvelopeWritersAreTheListedOnes : Obligations.ClockAndEnvelopeWritersAreTheListedOnes := by
  intro i s t h
  refine ⟨?t0, fun hmoved => ((ran_currentValue (ran_of_exec h)).resolve_left hmoved).1, ?easing⟩
  case t0 =>
    cases ran_of_exec h with
    | clkReset | clkElapsed | gateOn | gateOff | advance | tick => simp
    | refused | dacEncode | dacTransmit | dacWrite | setRate | setStep | readEnv =>
      exact fun hmoved => absurd (by simp) hmoved
  case easing =>
    cases ran_of_exec h with
    | gateOn | advance | tick => simp
    | refused | clkReset | clkElapsed | gateOff | dacEncode | dacTransmit | dacWrite | setRate | setStep | readEnv =>
      exact fun hmoved => absurd (by simp) hmoved

/-- Settles O28: the value moves only by an ADVANCE, which keeps it within the limits. -/
theorem valueNeverLeavesTheLimits : Obligations.ValueNeverLeavesTheLimits := by
  intro i s t hmin hmax hlow hhigh h
  obtain ⟨hminLimit, hmaxLimit, -, -⟩ := ran_configuration (ran_of_exec h)
  rw [hminLimit, hmaxLimit]
  obtain hsame | ⟨-, gate, hadvance⟩ := ran_currentValue (ran_of_exec h)
  · rw [hsame]
    exact ⟨hlow, hhigh⟩
  · rw [hadvance]
    simpa using advance_within_limits (s := applyGate gate s) (by simp [hmin, hmax]) (by simp [hlow, hhigh])

/-- Settles O46: every value an operation leaves is one of the intermediates. -/
theorem valueStaysInTheValueWidth : Obligations.ValueStaysInTheValueWidth := by
  intro i s t hwidth h
  obtain ⟨-, -, -, hpar⟩ := ran_configuration (ran_of_exec h)
  rw [hpar]
  obtain hsame | ⟨-, gate, hadvance⟩ := ran_currentValue (ran_of_exec h)
  · rw [hsame]
    exact hwidth _ (by simp [envelopeIntermediates])
  · rw [hadvance]
    exact hwidth _ (envelopeIntermediates_applyGate gate s ▸ advance_currentValue_mem _)

/-! ### The timed stages -/

/-- Settles O23: a negative rate is below every elapsed time, and rate 0 is not below 0. -/
theorem unsetRateStepsOnEveryAdvance : Obligations.UnsetRateStepsOnEveryAdvance := by
  intro s g heasing hstage
  have hadvance : advance s = timedStep g g.act s :=
    advance_of_timed heasing (hstage.trans (by cases g <;> rfl))
  rw [exec_advance, hadvance]
  refine ⟨fun hneg => ?_, fun hzero hnow => ?_⟩
  · have hdue : perStageGet s.rate g < (elapsedTime s : Int) := by omega
    refine ⟨_, rfl, ?_, ?_⟩
    · rw [timedStep_of_lt hdue, returning_t0, clockReset_t0, act_reading]
      exact reading_congr (afterElapsed_readings s) (afterElapsed_draws s) (by simp)
    · rw [returning_currentValue, timedStep_currentValue, if_pos hdue]
      cases g <;> rfl
  · have hnot : (elapsedTime s : Int) ≤ perStageGet s.rate g := by
      rw [elapsedTime_of_le hnow.ge]
      omega
    rw [timedStep_of_le hnot, afterElapsed_of_le hnow.ge]
    rfl

/-- Settles O32: the target of the step is the value itself, short of the stage's end, so neither of them moves. -/
theorem zeroDeltaFreezesTheStage : Obligations.ZeroDeltaFreezesTheStage := by
  intro s t heasing h hfrozen
  rw [exec_advance] at h
  cases h
  rw [returning_stage, returning_currentValue, advance_stage]
  have hpct (p : Nat) : s.pct p = p * (s.maxLimit - s.minLimit) / 100 := rfl
  obtain ⟨hs, hdelta, hshort⟩ | ⟨hs, hdelta, hshort⟩ | ⟨hs, hdelta, hshort⟩ := hfrozen <;> rw [← hpct] at hdelta
  · rw [advance_of_timed (g := .A) heasing hs, timedStep_currentValue]
    simp [stageAfterAdvance, TimedStage.target, heasing, hs, hdelta, hshort, hshort.le]
  · rw [advance_of_timed (g := .D) heasing hs, timedStep_currentValue]
    simp [stageAfterAdvance, TimedStage.target, heasing, hs, hdelta, hshort, hshort.le]
  · rw [advance_of_timed (g := .R) heasing hs, timedStep_currentValue]
    simp [stageAfterAdvance, TimedStage.target, heasing, hs, hdelta, hshort, hshort.le]

/-! ### Easing -/

theorem pct_easePct (s : State) : s.pct easePct = 15 * (s.maxLimit - s.minLimit) / 100 := rfl

/-- Settles O29: an easing step is the truncated 15 %, or less where it is clamped. -/
theorem easingStepIsAtMostFifteenPercent : Obligations.EasingStepIsAtMostFifteenPercent := by
  intro s t heasing habove hrange h
  rw [exec_advance, advance_of_easing heasing] at h
  cases h
  have hnonneg := pct_nonneg s easePct hrange.le
  rw [returning_currentValue, ease_currentValue]
  rw [pct_easePct] at *
  omega

/-- Gate operations do not end the ramp (R120, R121). -/
theorem applyGate_easing_of_easing {s : State} (h : s.easing = true) (gate : Gate) :
    (applyGate gate s).easing = true := by
  cases gate <;> simp [applyGate, easingAfterGateOn, h]

/-- An easing block whose step is 0 does not move under ADVANCE (R146). -/
theorem advance_of_stalled {s : State} (heasing : s.easing = true) (habove : s.minLimit < s.currentValue)
    (hstep : 15 * (s.maxLimit - s.minLimit) / 100 = 0) : advance s = s := by
  rw [← pct_easePct] at hstep
  obtain ⟨hreached, -⟩ | ⟨-, hease⟩ := ease_cases s
  · omega
  · rw [advance_of_easing heasing, hease, hstep, sub_zero]

/-- Settles O31: ADVANCE is the only operation that could end easing or move the value, and it is stalled. -/
theorem easingStallsWhenFifteenPercentIsZero : Obligations.EasingStallsWhenFifteenPercentIsZero := by
  intro i s t heasing habove hstep h
  have hstalled (gate : Gate) : advance (applyGate gate s) = applyGate gate s :=
    advance_of_stalled (applyGate_easing_of_easing heasing gate) (by simpa using habove) (by simpa using hstep)
  obtain ⟨hmin, hmax, -, -⟩ := ran_configuration (ran_of_exec h)
  refine ⟨?_, ?_, hmin, hmax⟩
  · cases ran_of_exec h with
    | gateOn => exact applyGate_easing_of_easing heasing .rose
    | gateOff => exact applyGate_easing_of_easing heasing .fell
    | advance =>
      rw [returning_easing, show advance s = s from hstalled .none, heasing]
    | tick =>
      rw [returning_easing, tickWork_easing, hstalled]
      exact applyGate_easing_of_easing heasing _
    | refused | clkReset | clkElapsed | dacEncode | dacTransmit | dacWrite | setRate | setStep | readEnv =>
      simpa using heasing
  · obtain hsame | ⟨-, gate, hadvance⟩ := ran_currentValue (ran_of_exec h)
    · exact hsame
    · rw [hadvance, hstalled, applyGate_currentValue]

/-! ### The length of the ramp (R145) -/

/-- The operations of R145: the gate and ADVANCE. -/
def GateOrAdvance (i : Instr) : Prop := i = .gateOn ∨ i = .gateOff ∨ i = .advance

/-- A block whose ramp is over: at the minimum, where GATE_ON does not start another. -/
def RampOver (s : State) : Prop := s.easing = false ∧ s.currentValue = s.minLimit

theorem GateOrAdvance.cases {i : Instr} (h : GateOrAdvance i) :
    i = .advance ∨ i ≠ .advance ∧ ∃ gate, ∀ s : State, exec i s = .next ((applyGate gate s).returning .none) := by
  obtain rfl | rfl | rfl := h
  · exact .inr ⟨nofun, .rose, exec_gateOn⟩
  · exact .inr ⟨nofun, .fell, exec_gateOff⟩
  · exact .inl rfl

theorem rampOver_applyGate {s : State} (h : RampOver s) (gate : Gate) : RampOver (applyGate gate s) := by
  obtain ⟨heasing, hvalue⟩ := h
  cases gate <;> simp [RampOver, applyGate, easingAfterGateOn, heasing, hvalue]

theorem execAll_cons_of_next {i : Instr} {l : List Instr} {s u : State} (h : exec i s = .next u) :
    execAll (i :: l) s = execAll l u := by
  simp only [execAll, h]

/-- A property that each operation of a sequence keeps holds at its end (R55). -/
theorem execAll_keeps {P : State → Prop} {l : List Instr} {s t : State}
    (hkeeps : ∀ i ∈ l, ∀ u v, P u → exec i u = .next v → P v) (hs : P s) (h : execAll l s = .next t) : P t := by
  induction l generalizing s with
  | nil => cases h; exact hs
  | cons i l ih =>
    obtain ⟨u, hu⟩ := exec_total i s
    rw [execAll_cons_of_next hu] at h
    exact ih (fun j hj => hkeeps j (List.mem_cons_of_mem i hj)) (hkeeps i List.mem_cons_self s u hs hu) h

theorem execAll_configuration {l : List Instr} {s t : State} (h : execAll l s = .next t) :
    t.minLimit = s.minLimit ∧ t.par = s.par := by
  refine execAll_keeps (P := fun u => u.minLimit = s.minLimit ∧ u.par = s.par) (fun i _ u v hu hv => ?_) ⟨rfl, rfl⟩ h
  obtain ⟨hmin, -, -, hpar⟩ := ran_configuration (ran_of_exec hv)
  exact ⟨hmin.trans hu.1, hpar.trans hu.2⟩

/-- Without an ADVANCE nothing happens to a ramp that is over. -/
theorem execAll_rampOver {l : List Instr} {s t : State} (hl : ∀ i ∈ l, GateOrAdvance i)
    (hnone : l.count .advance = 0) (hs : RampOver s) (h : execAll l s = .next t) : RampOver t := by
  refine execAll_keeps (fun i hi u v hu hv => ?_) hs h
  obtain rfl | ⟨-, gate, hexec⟩ := (hl i hi).cases
  · exact absurd hi (List.count_eq_zero.mp hnone)
  · rw [hexec] at hv
    cases hv; exact rampOver_applyGate hu gate

/-- Where `k` ADVANCE calls on the ramp of `s` lead, by its height above the minimum: the block still eases while their
steps fall short of it, and the ramp is over with the step that covers it. -/
def RampAfter (k : Int) (s t : State) : Prop :=
  (k * s.pct easePct < s.currentValue - s.minLimit →
    t.easing = true ∧ t.currentValue = s.currentValue - k * s.pct easePct) ∧
  (s.currentValue - s.minLimit ≤ k * s.pct easePct → (k - 1) * s.pct easePct < s.currentValue - s.minLimit → RampOver t)

theorem rampAfter_zero {s : State} (heasing : s.easing = true) (habove : s.minLimit < s.currentValue) :
    RampAfter 0 s s :=
  ⟨fun _ => ⟨heasing, by omega⟩, fun hcovered _ => absurd hcovered (by omega)⟩

theorem rampAfter_of_applyGate {k : Int} {gate : Gate} {s t : State} (h : RampAfter k (applyGate gate s) t) :
    RampAfter k s t := by
  have hpct : (applyGate gate s).pct easePct = s.pct easePct := pct_congr _ (by simp) (by simp)
  simpa only [RampAfter, hpct, applyGate_currentValue, applyGate_minLimit] using h

/-- A step that stays above the minimum leaves a ramp one step shorter. -/
theorem rampAfter_of_step {k : Int} {s t : State}
    (h : RampAfter k { s with currentValue := s.currentValue - s.pct easePct } t) : RampAfter (k + 1) s t := by
  have hpct : State.pct { s with currentValue := s.currentValue - s.pct easePct } easePct = s.pct easePct := rfl
  simp only [RampAfter, hpct, sub_mul, one_mul] at h
  simp only [RampAfter, add_mul, one_mul, add_sub_cancel_right]
  refine ⟨fun hshort => ?_, fun hcovered hlast => h.2 (by omega) (by omega)⟩
  obtain ⟨hstill, hvalue⟩ := h.1 (by omega)
  exact ⟨hstill, by omega⟩

/-- A step that reaches the minimum is the last one. -/
theorem rampAfter_of_last {k : Int} {s t : State} (hk : 0 ≤ k) (habove : s.minLimit < s.currentValue)
    (hreached : s.currentValue - s.pct easePct ≤ s.minLimit) (h : k = 0 → RampOver t) : RampAfter (k + 1) s t := by
  have hq : 0 < s.pct easePct := by omega
  have hsteps : 0 ≤ k * s.pct easePct := Int.mul_nonneg hk hq.le
  simp only [RampAfter, add_mul, one_mul, add_sub_cancel_right]
  refine ⟨fun hshort => absurd hsteps (by omega), fun _ hlast => h ?_⟩
  have hlt : k < 1 := lt_of_mul_lt_mul_right (by rw [one_mul]; omega) hq.le
  omega

theorem execAll_easing {l : List Instr} {s t : State} (hl : ∀ i ∈ l, GateOrAdvance i) (heasing : s.easing = true)
    (habove : s.minLimit < s.currentValue) (h : execAll l s = .next t) : RampAfter (l.count .advance) s t := by
  induction l generalizing s with
  | nil => cases h; exact rampAfter_zero heasing habove
  | cons i l ih =>
    have hl' : ∀ j ∈ l, GateOrAdvance j := fun j hj => hl j (List.mem_cons_of_mem i hj)
    obtain rfl | ⟨hne, gate, hexec⟩ := (hl i List.mem_cons_self).cases
    · rw [execAll_cons_of_next (exec_advance s), advance_of_easing heasing] at h
      rw [List.count_cons_self, Nat.cast_succ]
      obtain ⟨hreached, hease⟩ | ⟨hmore, hease⟩ := ease_cases s <;> rw [hease] at h
      · exact rampAfter_of_last (Int.natCast_nonneg _) habove hreached fun hnone =>
          execAll_rampOver hl' (Int.natCast_eq_zero.mp hnone) ⟨rfl, rfl⟩ h
      · exact rampAfter_of_step
          (ih (s := State.returning { s with currentValue := s.currentValue - s.pct easePct } .none) hl' heasing hmore
            h)
    · rw [execAll_cons_of_next (hexec s)] at h
      rw [List.count_cons_of_ne hne]
      exact rampAfter_of_applyGate (gate := gate)
        (ih (s := (applyGate gate s).returning .none) hl' (applyGate_easing_of_easing heasing gate)
          (by simpa using habove) h)

/-- Below the rounded-up quotient are the numbers whose product falls short. -/
theorem lt_ceilDiv_iff {h q k : Int} (hq : 0 < q) : k < (h + q - 1) / q ↔ k * q < h := by
  rw [← Int.add_one_le_iff, Int.le_ediv_iff_mul_le hq, add_mul, one_mul]
  omega

/-- Settles O30: the rounded-up quotient is the number of steps that first covers the height. -/
theorem easingLastsTheCeilingOfItsHeight : Obligations.EasingLastsTheCeilingOfItsHeight := by
  intro l s t hl heasing habove q n k hq h
  obtain ⟨hduring, hafter⟩ := execAll_easing hl heasing habove h
  have hshort_iff (j : Int) : j < n ↔ j * q < s.currentValue - s.minLimit := lt_ceilDiv_iff hq
  refine ⟨fun hlt => hduring ((hshort_iff k).mp hlt), fun heq => ?_⟩
  have hcovered : s.currentValue - s.minLimit ≤ k * q := Int.not_lt.mp (mt (hshort_iff k).mpr heq.not_lt)
  obtain ⟨hover, hvalue⟩ := hafter hcovered ((hshort_iff (k - 1)).mp (by omega))
  exact ⟨hover, hvalue.trans (execAll_configuration h).1⟩

end Sys2Proof.Machine
end

section
/-! Proofs about the invariant of a configured block (spec R34, R27, R20, R25): what each part of an operation keeps of
it, then every step. -/

namespace Sys2Proof.Machine

open Sys2Proof.Safety

/-! ### Configuration -/

theorem inv_configured {cfg : Configuration} (h : LegalConfiguration cfg) {s : State}
    (hclock : s.t0 < 2 ^ cfg.par.wT.val) : Inv (configured cfg s) where
  range := h.range
  sustain := h.sustain
  value := ⟨le_rfl, h.range.le⟩
  sustainHolds := nofun
  idleAtMin _ _ := rfl
  easingAbove := nofun
  easingStage := nofun
  cache c m hm := by fin_cases c <;> cases hm
  cacheExists c _ := by fin_cases c <;> rfl
  clock := hclock
  linesAtRest k := by fin_cases k <;> exact ⟨rfl, rfl, fun _ => rfl⟩
  channels := h.channels
  injective := h.injective

/-! ### The Clock's writes -/

/-- "Reset Clock" needs the invariant for every `u{W_T}` in place of `S.t0`, since a reading is one (R25). -/
theorem inv_clockReset {s : State} (h : ∀ n < 2 ^ s.par.wT.val, Inv { s with t0 := n }) : Inv (clockReset s) := by
  rw [clockReset_eq]
  exact { h s.reading (reading_lt s) with }

/-- The invariant asks nothing more of `S.t0`. -/
theorem inv_withT0 {s : State} (h : Inv s) : ∀ n < 2 ^ s.par.wT.val, Inv { s with t0 := n } :=
  fun _ hn => { h with clock := hn }

theorem inv_afterElapsed {s : State} (h : Inv s) : Inv (afterElapsed s) := by
  unfold afterElapsed
  split
  · exact inv_clockReset (inv_withT0 h)
  · rw [drawn_eq]
    exact { h with }

/-! ### The envelope's writes (R34 (b) to (e)) -/

theorem inv_gateOn {s : State} (h : Inv s) : Inv (gateOn s) := by
  refine inv_clockReset (inv_withT0 (s := { s with easing := easingAfterGateOn s, stage := .attack })
    { h with sustainHolds := nofun, idleAtMin := nofun, easingStage := fun _ => .inl rfl, easingAbove := fun he => ?_ })
  obtain heasing | habove := Bool.or_eq_true_iff.mp he
  · exact h.easingAbove heasing
  · exact of_decide_eq_true habove

theorem inv_gateOff {s : State} (h : Inv s) : Inv (gateOff s) :=
  inv_clockReset (inv_withT0 (s := { s with stage := .release })
    { h with sustainHolds := nofun, idleAtMin := nofun, easingStage := fun _ => .inr rfl })

theorem inv_applyGate {s : State} (h : Inv s) (gate : Gate) : Inv (applyGate gate s) := by
  cases gate with
  | none => exact h
  | rose => exact inv_gateOn h
  | fell => exact inv_gateOff h

/-- The ramp runs in Attack and Release alone, so neither Sustain nor Idle binds the value it leaves. -/
theorem inv_ease {s : State} (h : Inv s) (heasing : s.easing = true) : Inv (ease s) := by
  have hstage := h.easingStage heasing
  have hnotSustain : s.stage ≠ .sustain := by obtain hs | hs := hstage <;> simp [hs]
  have hrange := h.range
  have hvalue := h.value
  have hpct := pct_nonneg s easePct hrange.le
  obtain ⟨-, hease⟩ | ⟨habove, hease⟩ := ease_cases s <;> rw [hease]
  · exact { h with
      value := ⟨le_rfl, hrange.le⟩
      sustainHolds := fun hs => absurd hs hnotSustain
      idleAtMin := fun _ _ => rfl
      easingAbove := nofun
      easingStage := nofun }
  · exact { h with
      value := ⟨habove.le, show s.currentValue - s.pct easePct ≤ s.maxLimit by omega⟩
      sustainHolds := fun hs => absurd hs hnotSustain
      idleAtMin := fun _ he => absurd (he : s.easing = false) (by simp [heasing])
      easingAbove := fun _ => habove }

/-- The value and the stage that a timed step of a stage may leave: the value within the limits, at the sustain level in
Sustain and at the minimum in Idle. -/
theorem inv_withValueAndStage {s : State} (h : Inv s) (heasing : s.easing = false) {x : Int} {st : Stage}
    (hvalue : s.minLimit ≤ x ∧ x ≤ s.maxLimit) (hsustain : st = .sustain → x = s.sustainLevel)
    (hidle : st = .idle → x = s.minLimit) : Inv { s with currentValue := x, stage := st } :=
  { h with
    value := hvalue
    sustainHolds := hsustain
    idleAtMin := fun hs _ => hidle hs
    easingAbove := fun he => absurd (he : s.easing = true) (by simp [heasing])
    easingStage := fun he => absurd (he : s.easing = true) (by simp [heasing]) }

/-- A timed stage is neither Sustain nor Idle, so it leaves the value free within the limits. -/
theorem inv_withValue {s : State} (h : Inv s) (heasing : s.easing = false) {g : TimedStage} (hstage : s.stage = g.stage)
    {x : Int} (hvalue : s.minLimit ≤ x ∧ x ≤ s.maxLimit) : Inv { s with currentValue := x } :=
  inv_withValueAndStage h heasing (st := s.stage) hvalue (by cases g <;> simp [hstage, TimedStage.stage])
    (by cases g <;> simp [hstage, TimedStage.stage])

theorem inv_act {s : State} (h : Inv s) (heasing : s.easing = false) {g : TimedStage} (hstage : s.stage = g.stage) :
    Inv (g.act s) := by
  obtain ⟨hsustainLow, hsustainHigh⟩ := h.sustain
  obtain ⟨hlow, hhigh⟩ := h.value
  have hrange := h.range
  have hpct (p : Nat) : 0 ≤ s.pct p := pct_nonneg s p hrange.le
  cases g with
  | A =>
    have := hpct s.step.attack
    simp only [TimedStage.act, attackAct]
    split
    · exact inv_withValueAndStage h heasing ⟨by omega, by omega⟩ nofun nofun
    · exact inv_withValue h heasing hstage ⟨by omega, by omega⟩
  | D =>
    have := hpct s.step.decay
    simp only [TimedStage.act, decayAct]
    split
    · exact inv_withValueAndStage h heasing ⟨by omega, by omega⟩ (fun _ => rfl) nofun
    · exact inv_withValue h heasing hstage ⟨by omega, by omega⟩
  | R =>
    have := hpct s.step.release
    simp only [TimedStage.act, releaseAct]
    split
    · exact inv_withValueAndStage h heasing ⟨by omega, by omega⟩ nofun (fun _ => rfl)
    · exact inv_withValue h heasing hstage ⟨by omega, by omega⟩

theorem inv_advance {s : State} (h : Inv s) : Inv (advance s) := by
  obtain ⟨heasing, hadvance⟩ | ⟨-, -, hadvance⟩ | ⟨g, heasing, hstage, hadvance⟩ := advance_easing_resting_or_timed s
  · rw [hadvance]
    exact inv_ease h heasing
  · rwa [hadvance]
  · rw [hadvance]
    obtain ⟨-, hnot⟩ | ⟨-, hdue⟩ := timedStep_cases g g.act s
    · rw [hnot]
      exact inv_afterElapsed h
    · rw [hdue]
      exact inv_clockReset (inv_withT0 (inv_act (inv_afterElapsed h) (by simpa using heasing) (by simpa using hstage)))

/-! ### The DAC side (R26, R27) -/

theorem encodeCache_eq (s : State) (c : Channel) (x : Int) :
    encodeCache s c x = { s with last := (encodeCache s c x).last } := by
  apply State.ext_fields <;> simp

theorem inv_encodeCache {s : State} (h : Inv s) {c : Channel} (hc : c.val < s.par.nch) (x : Int) :
    Inv (encodeCache s c x) := by
  rw [encodeCache_eq]
  refine { h with cache := fun d m hm => ?_, cacheExists := fun d hd => ?_ }
  · by_cases hdc : d = c
    · subst hdc
      cases (encodeCache_last_same s d x).symm.trans hm
      exact magnitude_le x
    · exact h.cache d m ((encodeCache_last_other s x hdc).symm.trans hm)
  · have hdc : d ≠ c := fun heq => absurd hc (Nat.not_lt.mpr (heq ▸ hd))
    exact (encodeCache_last_other s x hdc).trans (h.cacheExists d hd)

/-- A transmission leaves the lines of its chip at rest and the other chip's as they were (R27). -/
theorem inv_transmit {s : State} (h : Inv s) (k : Chip) (w : FrameWord) : Inv (transmit k w s) := by
  rw [transmit_eq]
  refine { h with linesAtRest := fun j => ?_ }
  by_cases hjk : j = k
  · subst hjk
    simp only [perChipGet_set_same, true_and]
    exact fun hlatch => if_pos hlatch
  · simp only [perChipGet_set_other _ _ hjk]
    exact h.linesAtRest j

theorem inv_dacWrite {s : State} (h : Inv s) {c : Channel} (hc : c.val < s.par.nch) (x : Int) :
    Inv (dacWrite c x s) := by
  unfold dacWrite
  split
  · exact inv_transmit (inv_encodeCache h hc x) _ _
  · exact inv_encodeCache h hc x

/-! ### Every operation and every step -/

theorem inv_returning {s : State} (h : Inv s) (r : Result) : Inv (s.returning r) := { h with }

theorem inv_refuse {s : State} (h : Inv s) (r : Reason) : Inv (s.refuse r) := { h with }

theorem inv_of_ran {i : Instr} {s t : State} (h : Inv s) (hran : Ran s i t) : Inv t := by
  cases hran with
  | refused => exact inv_refuse h _
  | clkReset => exact inv_returning (inv_clockReset (inv_withT0 h)) _
  | clkElapsed => exact inv_returning (inv_afterElapsed h) _
  | gateOn => exact inv_returning (inv_gateOn h) _
  | gateOff => exact inv_returning (inv_gateOff h) _
  | advance => exact inv_returning (inv_advance h) _
  | dacEncode hc x => exact inv_returning (inv_encodeCache h hc x) _
  | dacTransmit k w => exact inv_returning (inv_transmit h k w) _
  | dacWrite hc x => exact inv_returning (inv_dacWrite h hc x) _
  | tick hg hc => exact inv_returning (inv_dacWrite (inv_advance (inv_applyGate h _)) (by simpa using hc) _) _
  | setRate => exact { h with }
  | setStep => exact { h with }
  | readEnv => exact inv_returning h _

/-- A configuration with a next state was legal, and leaves the reset values with a fresh reading (R260, R261). -/
theorem configured_of_step {s t : State} {cfg : Configuration} {rs : List Nat} {rest : List HostInput}
    (hin : s.inbox = .configure cfg rs :: rest) (h : step s = .next t) :
    LegalConfiguration cfg ∧ t = clockReset (configured cfg { s with inbox := rest, readings := rs }) := by
  rw [step_of_configure hin] at h
  by_cases hlegal : LegalConfiguration cfg
  · rw [configure_of_legal hlegal] at h
    cases h
    exact ⟨hlegal, rfl⟩
  · rw [configure_of_not_legal hlegal] at h
    cases h

/-- Settles O10: the reset values meet every clause, and the Clock's reference is a reading. -/
theorem configurationEstablishesTheInvariant : Obligations.ConfigurationEstablishesTheInvariant := by
  intro s t cfg rs rest hin hlegal h
  obtain ⟨-, rfl⟩ := configured_of_step hin h
  exact inv_clockReset fun n hn => inv_configured (s := { s with inbox := rest, readings := rs, t0 := n }) hlegal hn

/-- Settles O11: State.reset holds what its own configuration loads. -/
theorem resetSatisfiesTheInvariant : Obligations.ResetSatisfiesTheInvariant := by
  have hlegal : LegalConfiguration Configuration.default := (checkConfig_iff _).mp (by decide)
  exact inv_configured (s := State.reset) hlegal (by decide)

/-- Settles O51: a configuration establishes the invariant, and every operation keeps it. -/
theorem everyStepKeepsTheInvariant : Obligations.EveryStepKeepsTheInvariant := by
  intro s t hs h
  match hin : s.inbox with
  | [] =>
    rw [step_of_empty hin] at h
    cases h; exact hs
  | .configure cfg rs :: rest =>
    exact configurationEstablishesTheInvariant s t cfg rs rest hin (configured_of_step hin h).1 h
  | .command p rs :: rest =>
    have hready : Inv { s with inbox := rest, readings := rs } := { hs with }
    rw [step_of_command hin] at h
    obtain ⟨r, hrun⟩ | ⟨i, hrun⟩ := runCommand_cases p { s with inbox := rest, readings := rs } <;> rw [hrun] at h
    · cases h; exact inv_refuse hready r
    · exact inv_of_ran hready (ran_of_exec h)

end Sys2Proof.Machine
end

section
/-! Proofs about the codec's word and its cache under any operation (spec R26, R170–R177, R267). -/

namespace Sys2Proof.Machine

open Sys2Proof.Safety

/-! ### The frame word -/

/-- The frame word depends on the channel map, the channel and the value alone (R175). -/
theorem encodedWord_congr {s t : State} (h : s.par = t.par) (c : Channel) (x : Int) :
    encodedWord s c x = encodedWord t c x := by
  simp only [encodedWord, State.route, h]

theorem encoded_of_dacEncode {c : Channel} {x : Int} {s t : State} {w : FrameWord} {b : Bool}
    (h : exec (.dacEncode c x) s = .next t) (hw : t.result = .encoded w b) : w = encodedWord s c x := by
  cases ran_of_exec h with
  | refused => cases hw
  | dacEncode => cases hw; rfl

theorem codecInput_natCast {v : Nat} (h : v ≤ 4095) : codecInput v = v := by
  unfold codecInput clamp vMax; omega

theorem gainDisableBit_eq (v : Nat) : gainDisableBit v = decide (v ≤ 2048) := by
  change (!decide (2048 < v)) = _
  rw [← decide_not, decide_eq_decide, Nat.not_lt]

/-- Settles O35: the word is the same function of the parameters in both states. -/
theorem frameWordDependsOnOperandsOnly : Obligations.FrameWordDependsOnOperandsOnly := by
  intro c x s1 s2 t1 t2 w1 w2 b1 b2 hpar h1 h2 hw1 hw2
  rw [encoded_of_dacEncode h1 hw1, encoded_of_dacEncode h2 hw2, encodedWord_congr hpar]

/-- Settles O34: the fields read back are those of `frameOf`, whose magnitude is `2v` up to the threshold and `v` above
it. -/
theorem codecMapsEveryValue : Obligations.CodecMapsEveryValue := by
  intro c v s t hv hc hempty h
  have hinput := codecInput_natCast hv
  rw [exec_dacEncode_of_changed hc (by simp [hempty])] at h
  cases h
  refine ⟨_, rfl, ?_⟩
  simp only [encodedWord, DacFrame.ofWord_toWord, frameOf, hinput, returning_last, perChannelGet_set_same, magnitude_eq]
  refine ⟨gainDisableBit_eq v, rfl, rfl, ?_, ?_⟩
  · rw [BitVec.toNat_ofNat]
    split_ifs <;> omega
  · rw [Option.some_inj]
    split_ifs <;> omega

/-- What a later encode of the channel finds: the magnitude last encoded, so a value with the same magnitude needs no
transmission, and its word is as it would have been before (R174, R175). -/
theorem encode_twice {c : Channel} {x y : Int} {s : State} (hc : c.val < s.par.nch)
    (hsame : magnitude (codecInput x) = magnitude (codecInput y)) :
    ∃ t b, exec (.dacEncode c x) s = .next t ∧ t.result = .encoded (encodedWord s c x) b ∧
      exec (.dacEncode c y) t = .next { t with result := .encoded (encodedWord s c y) false } := by
  refine ⟨_, _, exec_dacEncode_of_lt hc x, rfl, ?_⟩
  rw [exec_dacEncode_of_unchanged (by simpa using hc) (by rw [← hsame]; exact encodeCache_last_same s c x),
    encodedWord_congr (s := State.returning _ _) (t := s) (by simp)]
  rfl

/-- Settles O36: the second encode finds the magnitude of the first. -/
theorem secondEqualEncodeIsSuppressed : Obligations.SecondEqualEncodeIsSuppressed := by
  intro c x s t hc h
  obtain ⟨u, b, hu, hword, hagain⟩ := encode_twice hc (rfl : magnitude (codecInput x) = _)
  cases hu.symm.trans h
  exact ⟨_, b, hword, hagain⟩

/-- Two frames that differ in the gain bit alone differ in bit 13 of their words (R71). -/
theorem toWord_xor_of_gain (f : DacFrame) :
    f.toWord ^^^ DacFrame.toWord { f with gainDisable := !f.gainDisable } = 0x2000 := by
  apply BitVec.eq_of_getLsbD_eq
  intro i hi
  simp only [DacFrame.toWord, BitVec.getLsbD_xor, BitVec.getLsbD_append, BitVec.getLsbD_ofBool]
  have : i < 16 := hi
  interval_cases i <;> simp

theorem magnitude_collision {h : Nat} (hlow : 1025 ≤ h) (hhigh : h ≤ 2047) : magnitude (2 * h) = magnitude h := by
  rw [magnitude_eq, magnitude_eq]
  split_ifs <;> omega

theorem frameOf_collision (sub : SubChannel) {h : Nat} (hlow : 1025 ≤ h) (hhigh : h ≤ 2047) :
    frameOf sub h = { frameOf sub (2 * h) with gainDisable := !(frameOf sub (2 * h)).gainDisable } := by
  have hgain : ¬ 2048 < h ∧ 2048 < 2 * h := by omega
  simp [frameOf, magnitude_collision hlow hhigh, gainDisableBit, gainThreshold, hgain]

/-- Between 1025 and 2047, `h` without gain and `2h` with gain have the same magnitude, and their words differ in the
gain bit alone (R177). -/
theorem gain_collision (s : State) (c : Channel) {h : Nat} (hlow : 1025 ≤ h) (hhigh : h ≤ 2047) :
    magnitude (codecInput (2 * h)) = magnitude (codecInput h) ∧
      encodedWord s c (2 * h) ^^^ encodedWord s c h = 0x2000 := by
  have hdouble : codecInput (2 * h) = 2 * h := by exact_mod_cast codecInput_natCast (v := 2 * h) (by omega)
  have hsingle : codecInput h = h := codecInput_natCast (by omega)
  rw [encodedWord, encodedWord, hdouble, hsingle]
  refine ⟨magnitude_collision hlow hhigh, ?_⟩
  rw [frameOf_collision _ hlow hhigh]
  exact toWord_xor_of_gain _

/-- Settles O37: in either order the second encode finds its own magnitude in the cache. -/
theorem gainCollisionIsSuppressed : Obligations.GainCollisionIsSuppressed := by
  intro c h s a b hlow hhigh hab hc
  obtain ⟨hmagnitude, hwords⟩ := gain_collision s c hlow hhigh
  obtain ⟨rfl, rfl⟩ | ⟨rfl, rfl⟩ := hab
  · obtain ⟨t, b1, hfirst, hword, hsecond⟩ := encode_twice hc hmagnitude
    exact ⟨t, _, _, b1, hfirst, hword, hsecond, hwords⟩
  · obtain ⟨t, b1, hfirst, hword, hsecond⟩ := encode_twice hc hmagnitude.symm
    exact ⟨t, _, _, b1, hfirst, hword, hsecond, BitVec.xor_comm _ _ ▸ hwords⟩

/-! ### The cache (R26) -/

/-- One encode leaves another channel's entry, and its own with a magnitude. -/
theorem encodeCache_entry (s : State) (c d : Channel) (x : Int) :
    perChannelGet (encodeCache s c x).last d = perChannelGet s.last d ∨
    (∃ m, m ≤ 4096 ∧ perChannelGet (encodeCache s c x).last d = some m) ∧ d = c := by
  by_cases h : d = c
  · subst h
    exact .inr ⟨⟨_, magnitude_le x, encodeCache_last_same s d x⟩, rfl⟩
  · exact .inl (encodeCache_last_other s x h)

/-- Settles O38: the three writers encode on their own channel, and no other operation touches the cache. -/
theorem cacheIsWrittenOnlyByTheCodec : Obligations.CacheIsWrittenOnlyByTheCodec := by
  intro i s t d h
  cases ran_of_exec h with
  | @dacEncode c hc x =>
    exact (encodeCache_entry s c d x).imp_right (And.imp_right fun hd => .inl ⟨x, by rw [hd]⟩)
  | @dacWrite c hc x =>
    rw [returning_last, dacWrite_last]
    exact (encodeCache_entry s c d x).imp_right (And.imp_right fun hd => .inr (.inl ⟨x, by rw [hd]⟩))
  | @tick g gate hg hc =>
    rw [returning_last, tickWork, dacWrite_last]
    have hentry := encodeCache_entry (advance (applyGate gate s)) s.par.envChannel d
      (advance (applyGate gate s)).currentValue
    rw [advance_last, applyGate_last] at hentry
    exact hentry.imp_right (And.imp_right fun hd => .inr (.inr ⟨⟨g, rfl⟩, hd⟩))
  | refused | clkReset | clkElapsed | gateOn | gateOff | advance | dacTransmit | setRate | setStep | readEnv =>
    exact .inl (by simp)

/-! ### The trace of a DAC write -/

/-- A DAC write appends one line sequence, or nothing where the entry is the value's magnitude (R210). -/
theorem dacWrite_trace (c : Channel) (x : Int) (s : State) :
    (dacWrite c x s).trace = s.trace ++
      if perChannelGet s.last c = some (magnitude (codecInput x)) then []
      else lineSequence (s.route c).chip (encodedWord s c x) (perChipGet s.par.latchPresent (s.route c).chip) := by
  obtain ⟨hsame, hwrite⟩ | ⟨hchanged, hwrite⟩ := dacWrite_cases c x s
  · rw [hwrite, if_pos hsame, List.append_nil]
  · rw [hwrite, if_neg hchanged, transmit_trace, transmission_eq_lineSequence]

/-- Operations that do not encode on a channel leave its entry EMPTY. -/
theorem execAll_keeps_empty {l : List Instr} {s t : State} {c : Channel}
    (hother : ∀ i ∈ l, (∀ x, i ≠ .dacEncode c x) ∧ (∀ x, i ≠ .dacWrite c x) ∧
      (c = s.par.envChannel → ∀ g, i ≠ .tick g))
    (hempty : perChannelGet s.last c = none) (h : execAll l s = .next t) : perChannelGet t.last c = none := by
  have hkept : perChannelGet t.last c = none ∧ t.par = s.par := by
    refine execAll_keeps (P := fun u => perChannelGet u.last c = none ∧ u.par = s.par)
      (fun i hi u v hu hexec => ?_) ⟨hempty, rfl⟩ h
    obtain ⟨hnotEncode, hnotWrite, hnotTick⟩ := hother i hi
    obtain ⟨hlast, hpar⟩ := hu
    obtain ⟨-, -, -, hsamePar⟩ := ran_configuration (ran_of_exec hexec)
    refine ⟨?_, hsamePar.trans hpar⟩
    obtain hsame | ⟨-, ⟨x, rfl⟩ | ⟨x, rfl⟩ | ⟨⟨g, rfl⟩, henv⟩⟩ := cacheIsWrittenOnlyByTheCodec i u v c hexec
    · exact hsame.trans hlast
    · exact absurd rfl (hnotEncode x)
    · exact absurd rfl (hnotWrite x)
    · exact absurd rfl (hnotTick (hpar ▸ henv) g)
  exact hkept.1

/-- Settles O12: the configuration empties the entry, no operation of another channel fills it, and EMPTY equals no
magnitude. -/
theorem firstWriteAfterConfigurationTransmits : Obligations.FirstWriteAfterConfigurationTransmits := by
  intro s t u cfg rs rest l c v hin hstep hc hother hall
  obtain ⟨-, rfl⟩ := configured_of_step hin hstep
  have hpar : u.par = cfg.par := (execAll_configuration hall).2.trans (clockReset_par _)
  have hempty : perChannelGet u.last c = none :=
    execAll_keeps_empty (by rw [clockReset_par]; exact hother)
      (by rw [clockReset_last]; fin_cases c <;> rfl) hall
  refine ⟨clockReset_trace _, _, exec_dacWrite_of_lt (hpar ▸ hc) v, ?_⟩
  rw [returning_trace, dacWrite_trace, if_neg (by simp [hempty]), State.route, hpar]

end Sys2Proof.Machine
end

section
/-! Proofs about the trace and a receiver on a chip's lines (spec R31, R192–R194). -/

namespace Sys2Proof.Machine

open Sys2Proof.Safety

/-! ### A receiver on the lines -/

/-- A selected receiver shifts one bit in. -/
theorem observe_bitEvents (k : Chip) (b : Bool) {r : Receiver} (hr : r.selected = true) :
    (bitEvents k b).foldl (Receiver.observe k) r =
      { r with data := b, bits := r.bits + 1, value := 2 * r.value + b.toNat } := by
  simp [bitEvents, Receiver.observe, hr]

/-- Horner's rule: the number above bit `n`, doubled, with bit `n` added, is the number from bit `n` up. -/
theorem two_mul_shift_add_bit (w : FrameWord) (n : Nat) :
    2 * (w.toNat / 2 ^ (n + 1)) + (w.getLsbD n).toNat = w.toNat / 2 ^ n := by
  rw [BitVec.getLsbD, Nat.toNat_testBit, pow_succ, ← Nat.div_div_eq_div_mul]
  omega

/-- The last `n` bits, most significant first, complete the frame's number. -/
theorem observe_last_bits (k : Chip) (w : FrameWord) (n : Nat) {r : Receiver} (hr : r.selected = true)
    (hvalue : r.value = w.toNat / 2 ^ n) :
    ∃ data, (((List.range n).reverse.map w.getLsbD).flatMap (bitEvents k)).foldl (Receiver.observe k) r =
      { r with data := data, bits := r.bits + n, value := w.toNat } := by
  induction n generalizing r with
  | zero =>
    have hall : w.toNat = r.value := by simp [hvalue]
    exact ⟨r.data, by simp [hall]⟩
  | succ n ih =>
    rw [List.range_succ, List.reverse_append, List.reverse_singleton, List.singleton_append, List.map_cons,
      List.flatMap_cons, List.foldl_append, observe_bitEvents k _ hr, hvalue, two_mul_shift_add_bit]
    obtain ⟨data, hrest⟩ := ih (r := { r with
      data := w.getLsbD n, bits := r.bits + 1, value := w.toNat / 2 ^ n }) hr rfl
    exact ⟨data, by rw [hrest]; simp [Nat.add_comm, Nat.add_left_comm]⟩

theorem frameBits_eq (w : FrameWord) : frameBits w = (List.range 16).reverse.map w.getLsbD := by
  simp [frameBits, frameBit, List.range, List.range.loop]

/-- The receiver of the chip completes exactly the frame (R192, R193). -/
theorem framesReceived_transmission_same (k : Chip) (w : FrameWord) (latch : Bool) :
    framesReceived k (transmission k w latch) = [w.toNat] := by
  have hselect : (Receiver.observe k ⟨false, false, 0, 0, []⟩ (.pin k .cs false)) = ⟨true, false, 0, 0, []⟩ := by
    simp [Receiver.observe]
  have hnone : w.toNat / 2 ^ 16 = 0 := Nat.div_eq_of_lt w.isLt
  obtain ⟨data, hbits⟩ := observe_last_bits k w 16 (r := ⟨true, false, 0, 0, []⟩) rfl hnone.symm
  simp only [framesReceived, transmission, frameBits_eq, List.foldl_append, List.foldl_cons, List.foldl_nil, hselect,
    hbits]
  cases latch <;> simp [latchEvents, Receiver.observe]

/-- To the receiver of the other chip the transmission is nothing. -/
theorem framesReceived_transmission_other {j k : Chip} (hne : k ≠ j) (w : FrameWord) (latch : Bool) :
    framesReceived j (transmission k w latch) = [] := by
  have hbits (l : List Bool) (r : Receiver) : (l.flatMap (bitEvents k)).foldl (Receiver.observe j) r = r := by
    induction l with
    | nil => rfl
    | cons b l ih => simpa [bitEvents, Receiver.observe, hne] using ih
  simp only [framesReceived, transmission, List.foldl_append, hbits]
  cases latch <;> simp [latchEvents, Receiver.observe, hne]

theorem framesReceived_lineSequence (j k : Chip) (w : FrameWord) (latch : Bool) :
    framesReceived j (lineSequence k w latch) = if j = k then [w.toNat] else [] := by
  rw [← transmission_eq_lineSequence]
  split
  next h => rw [h, framesReceived_transmission_same]
  next h => exact framesReceived_transmission_other (Ne.symm h) w latch

/-! ### The trace after any operation -/

/-- Settles O40: what each operation appends is no event, or the line sequence of one frame. -/
theorem receiverRecoversExactlyTheFramesSent : Obligations.ReceiverRecoversExactlyTheFramesSent := by
  intro i s t j h hnotTick
  cases ran_of_exec h with
  | @refused i r hmeaning =>
    refine ⟨[], by simp, ?_⟩
    cases i with
    | dacWrite c v =>
      have hc : ¬ c.val < s.par.nch := fun hc =>
        hmeaning (hasMeaning_of_not_tick hnotTick ((channelLegal_iff _ c).mpr hc))
      exact (if_neg fun hsent => hc hsent.1).symm
    | dacTransmit k w => exact absurd (hasMeaning_of_not_tick hnotTick rfl) hmeaning
    | _ => rfl
  | dacTransmit k w => exact ⟨_, transmit_trace s k w, framesReceived_lineSequence j k w _⟩
  | @dacWrite c hc x =>
    refine ⟨_, dacWrite_trace c x s, ?_⟩
    by_cases hsame : perChannelGet s.last c = some (magnitude (codecInput x))
    · rw [if_pos hsame]
      exact (if_neg fun hsent => hsent.2.1 hsame).symm
    · rw [if_neg hsame, framesReceived_lineSequence]
      by_cases hj : j = (s.route c).chip
      · exact (if_pos hj).trans (if_pos ⟨hc, hsame, hj⟩).symm
      · exact (if_neg hj).trans (if_neg fun hsent => hj hsent.2.2).symm
  | tick => exact absurd rfl (hnotTick _)
  | clkReset | clkElapsed | gateOn | gateOff | advance | dacEncode | setRate | setStep | readEnv =>
    exact ⟨[], by simp, rfl⟩

/-- Settles O41: DAC_TRANSMIT and the DAC write are what appends to the trace and drives lines. -/
theorem traceOnlyGrowsAndOnlyByTransmission : Obligations.TraceOnlyGrowsAndOnlyByTransmission := by
  intro i s t h
  cases ran_of_exec h with
  | dacTransmit k w => exact ⟨⟨_, transmit_trace s k w⟩, fun _ => .inl ⟨k, w, rfl⟩⟩
  | @dacWrite c hc x => exact ⟨⟨_, dacWrite_trace c x s⟩, fun _ => .inr (.inl ⟨c, x, rfl⟩)⟩
  | @tick g gate hg hc =>
    have htrace := dacWrite_trace s.par.envChannel (advance (applyGate gate s)).currentValue
      (advance (applyGate gate s))
    rw [advance_trace, applyGate_trace] at htrace
    exact ⟨⟨_, htrace⟩, fun _ => .inr (.inr ⟨g, rfl⟩)⟩
  | refused | clkReset | clkElapsed | gateOn | gateOff | advance | dacEncode | setRate | setStep | readEnv =>
    exact ⟨⟨[], by simp⟩, by simp⟩

end Sys2Proof.Machine
end

section
/-! Proofs of noninterference: what the envelope does not read does not influence it (spec R10, R196, R242, R278). -/

namespace Sys2Proof.Machine

open Sys2Proof.Safety

/-! ### Maps that the envelope cannot see -/

/-- `f` keeps every register that the envelope and its Clock read, and commutes with everything they write. -/
structure Unseen (f : State → State) : Prop where
  minLimit (s : State) : (f s).minLimit = s.minLimit
  maxLimit (s : State) : (f s).maxLimit = s.maxLimit
  sustainLevel (s : State) : (f s).sustainLevel = s.sustainLevel
  rate (s : State) : (f s).rate = s.rate
  step (s : State) : (f s).step = s.step
  stage (s : State) : (f s).stage = s.stage
  currentValue (s : State) : (f s).currentValue = s.currentValue
  easing (s : State) : (f s).easing = s.easing
  t0 (s : State) : (f s).t0 = s.t0
  reading (s : State) : (f s).reading = s.reading
  drawn (s : State) : (f s).drawn = f s.drawn
  write (s : State) (st : Stage) (x : Int) (e : Bool) (n : Nat) :
    { f s with stage := st, currentValue := x, easing := e, t0 := n } =
      f { s with stage := st, currentValue := x, easing := e, t0 := n }

/-- `g` does the same whatever stands in the fields that the envelope cannot see. -/
def Blind (g : State → State) : Prop := ∀ ⦃f : State → State⦄, Unseen f → ∀ s, g (f s) = f (g s)

section
variable {f : State → State} (hf : Unseen f)
include hf

theorem Unseen.pct (s : State) (p : Nat) : (f s).pct p = s.pct p := pct_congr p (hf.minLimit s) (hf.maxLimit s)

theorem Unseen.elapsedTime (s : State) : elapsedTime (f s) = elapsedTime s := by
  simp only [Machine.elapsedTime, hf.reading, hf.t0]

end

theorem blind_clockReset : Blind clockReset := by
  intro f hf s
  simp only [clockReset, hf.drawn, hf.reading, hf.write]
  simp only [hf.stage, hf.currentValue, hf.easing]

theorem blind_afterElapsed : Blind afterElapsed := by
  intro f hf s
  unfold afterElapsed
  rw [hf.reading, hf.t0, hf.drawn, apply_ite f]
  simp only [hf.write]
  simp only [hf.stage, hf.currentValue, hf.easing]

theorem blind_gateOn : Blind gateOn := by
  intro f hf s
  simp only [gateOn, hf.write, blind_clockReset hf]
  simp only [easingAfterGateOn, hf.easing, hf.minLimit, hf.currentValue, hf.t0]

theorem blind_gateOff : Blind gateOff := by
  intro f hf s
  simp only [gateOff, hf.write, blind_clockReset hf]
  simp only [hf.easing, hf.currentValue, hf.t0]

theorem blind_applyGate (gate : Gate) : Blind (applyGate gate) := by
  cases gate with
  | none => exact fun _ _ _ => rfl
  | rose => exact blind_gateOn
  | fell => exact blind_gateOff

theorem blind_ease : Blind ease := by
  intro f hf s
  have hreached (x : Int) : easeReached (f s) x = easeReached s x := by simp only [easeReached, hf.minLimit]
  simp only [ease, hreached, hf.write, apply_ite f]
  simp only [hf.stage, hf.currentValue, hf.easing, hf.t0, hf.minLimit, hf.pct]

theorem blind_act (g : TimedStage) : Blind g.act := by
  intro f hf s
  cases g with
  | A =>
    simp only [TimedStage.act, attackAct, hf.write, apply_ite f]
    simp only [hf.stage, hf.currentValue, hf.easing, hf.t0, hf.maxLimit, hf.step, hf.pct]
  | D =>
    simp only [TimedStage.act, decayAct, hf.write, apply_ite f]
    simp only [hf.stage, hf.currentValue, hf.easing, hf.t0, hf.sustainLevel, hf.step, hf.pct]
  | R =>
    simp only [TimedStage.act, releaseAct, hf.write, apply_ite f]
    simp only [hf.stage, hf.currentValue, hf.easing, hf.t0, hf.minLimit, hf.step, hf.pct]

theorem blind_timedStep (g : TimedStage) : Blind (timedStep g g.act) := by
  intro f hf s
  simp only [timedStep, hf.rate, hf.elapsedTime, blind_afterElapsed hf, blind_act g hf, blind_clockReset hf,
    apply_ite f]

/-- ADVANCE reads and writes the envelope and its Clock alone. -/
theorem blind_advance : Blind advance := by
  intro f hf s
  have heasing := hf.easing s
  have hstage := hf.stage s
  obtain ⟨he, h⟩ | ⟨he, hs, h⟩ | ⟨g, he, hs, h⟩ := advance_easing_resting_or_timed s
  · rw [h, advance_of_easing (heasing.trans he), blind_ease hf]
  · rw [h, advance_of_resting (heasing.trans he) (hstage ▸ hs)]
  · rw [h, advance_of_timed (heasing.trans he) (hstage.trans hs), blind_timedStep g hf]

/-! ### The realisation's parameters (R10, R278) -/

/-- The parameters of R10 that no operation reads, set anew. -/
def State.withRealisation (unit : ClockUnit) (settle width : Nat) (s : State) : State :=
  { s with par := { s.par with clockUnit := unit, tSettle := settle, wV := width } }

section
variable (unit : ClockUnit) (settle width : Nat)

theorem unseen_withRealisation : Unseen (State.withRealisation unit settle width) where
  minLimit _ := rfl
  maxLimit _ := rfl
  sustainLevel _ := rfl
  rate _ := rfl
  step _ := rfl
  stage _ := rfl
  currentValue _ := rfl
  easing _ := rfl
  t0 _ := rfl
  reading _ := rfl
  drawn s := by cases h : s.readings <;> simp [State.drawn, State.withRealisation, h]
  write _ _ _ _ _ := rfl

theorem encodeCache_withRealisation (s : State) (c : Channel) (x : Int) :
    encodeCache (s.withRealisation unit settle width) c x = (encodeCache s c x).withRealisation unit settle width := by
  unfold encodeCache
  rw [apply_ite (State.withRealisation unit settle width)]
  rfl

theorem perform_withRealisation (s : State) (events : List Event) :
    (s.withRealisation unit settle width).perform events = (s.perform events).withRealisation unit settle width := rfl

theorem transmit_withRealisation (k : Chip) (w : FrameWord) (s : State) :
    transmit k w (s.withRealisation unit settle width) = (transmit k w s).withRealisation unit settle width :=
  perform_withRealisation unit settle width s (transmission k w (perChipGet s.par.latchPresent k))

/-- A DAC write looks up the cache, the route and the latch, and none of these parameters. -/
theorem dacWrite_withRealisation (c : Channel) (x : Int) (s : State) :
    dacWrite c x (s.withRealisation unit settle width) = (dacWrite c x s).withRealisation unit settle width := by
  have hsame : encodeChanged (s.withRealisation unit settle width) c x = encodeChanged s c x := rfl
  have hword : encodedWord (s.withRealisation unit settle width) c x = encodedWord s c x := rfl
  have hroute : (s.withRealisation unit settle width).route c = s.route c := rfl
  cases h : encodeChanged s c x with
  | false =>
    rw [dacWrite_of_unchanged h, dacWrite_of_unchanged (hsame.trans h), encodeCache_withRealisation]
  | true =>
    rw [dacWrite_of_changed h, dacWrite_of_changed (hsame.trans h), encodeCache_withRealisation,
      transmit_withRealisation, hword, hroute]

theorem tickWork_withRealisation (gate : Gate) (s : State) :
    tickWork gate (s.withRealisation unit settle width) = (tickWork gate s).withRealisation unit settle width := by
  have hf := unseen_withRealisation unit settle width
  unfold tickWork
  rw [blind_applyGate gate hf, blind_advance hf, dacWrite_withRealisation, hf.currentValue]
  rfl

theorem exec_withRealisation {i : Instr} {s t : State} (h : exec i s = .next t) :
    exec i (s.withRealisation unit settle width) = .next (t.withRealisation unit settle width) := by
  have hf := unseen_withRealisation unit settle width
  cases i with
  | clkReset => cases h; rw [exec_clkReset, blind_clockReset hf]; rfl
  | clkElapsed => cases h; rw [exec_clkElapsed, blind_afterElapsed hf, hf.elapsedTime]; rfl
  | gateOn => cases h; rw [exec_gateOn, blind_gateOn hf]; rfl
  | gateOff => cases h; rw [exec_gateOff, blind_gateOff hf]; rfl
  | advance => cases h; rw [exec_advance, blind_advance hf]; rfl
  | dacEncode c x =>
    by_cases hc : c.val < s.par.nch
    · rw [exec_dacEncode_of_lt hc] at h
      cases h
      rw [exec_dacEncode_of_lt (s := s.withRealisation unit settle width) hc, encodeCache_withRealisation]
      rfl
    · rw [exec_dacEncode_of_le (Nat.not_lt.mp hc)] at h
      cases h
      exact exec_dacEncode_of_le (s := s.withRealisation unit settle width) (Nat.not_lt.mp hc) x
  | dacTransmit k w => cases h; rw [exec_dacTransmit, transmit_withRealisation]; rfl
  | dacWrite c x =>
    by_cases hc : c.val < s.par.nch
    · rw [exec_dacWrite_of_lt hc] at h
      cases h
      rw [exec_dacWrite_of_lt (s := s.withRealisation unit settle width) hc, dacWrite_withRealisation]
      rfl
    · rw [exec_dacWrite_of_le (Nat.not_lt.mp hc)] at h
      cases h
      exact exec_dacWrite_of_le (s := s.withRealisation unit settle width) (Nat.not_lt.mp hc) x
  | tick g =>
    cases hg : gateOfSel g with
    | none =>
      rw [exec_tick_of_none hg] at h
      cases h; exact exec_tick_of_none hg _
    | some gate =>
      by_cases hc : s.par.envChannel.val < s.par.nch
      · rw [exec_tick_of_some hg hc] at h
        cases h
        rw [exec_tick_of_some (s := s.withRealisation unit settle width) hg hc, tickWork_withRealisation]
        rfl
      · rw [exec_tick_of_le (ne_of_gate hg) (Nat.not_lt.mp hc)] at h
        cases h
        exact exec_tick_of_le (s := s.withRealisation unit settle width) (ne_of_gate hg) (Nat.not_lt.mp hc)
  | setRate sel r =>
    cases hg : stageOfSel sel with
    | none =>
      rw [exec_setRate_of_none hg] at h
      cases h; exact exec_setRate_of_none hg r _
    | some g =>
      rw [exec_setRate_of_some hg] at h
      cases h; exact exec_setRate_of_some hg r _
  | setStep sel p =>
    cases hg : stageOfSel sel with
    | none =>
      rw [exec_setStep_of_none hg] at h
      cases h; exact exec_setStep_of_none hg p _
    | some g =>
      by_cases hp : 0 ≤ p
      · obtain ⟨n, rfl⟩ := Int.eq_ofNat_of_zero_le hp
        rw [exec_setStep_of_some hg] at h
        cases h; exact exec_setStep_of_some hg n _
      · rw [exec_setStep_of_neg hg (Int.not_le.mp hp)] at h
        cases h; exact exec_setStep_of_neg hg (Int.not_le.mp hp) _
  | readEnv => cases h; rfl

end

/-- Settles O45: no part of an operation reads these parameters, and none writes a parameter. -/
theorem realisationParametersEnterNoOperation : Obligations.RealisationParametersEnterNoOperation := by
  intro i s t unit settle width h
  obtain ⟨-, -, -, hpar⟩ := ran_configuration (ran_of_exec h)
  have hrun := exec_withRealisation unit settle width h
  unfold State.withRealisation at hrun
  rw [hpar] at hrun
  exact hrun

/-! ### The DAC side (R196, R242) -/

/-- The envelope of `s` with the DAC side, the marks and the waiting inputs of `o`. -/
def State.withWire (o s : State) : State :=
  { s with last := o.last, pin := o.pin, refused := o.refused, trace := o.trace, inbox := o.inbox, result := o.result }

theorem unseen_withWire (o : State) : Unseen o.withWire where
  minLimit _ := rfl
  maxLimit _ := rfl
  sustainLevel _ := rfl
  rate _ := rfl
  step _ := rfl
  stage _ := rfl
  currentValue _ := rfl
  easing _ := rfl
  t0 _ := rfl
  reading _ := rfl
  drawn s := by cases h : s.readings <;> simp [State.drawn, State.withWire, h]
  write _ _ _ _ _ := rfl

theorem envelopeAgree_withWire (o s : State) : EnvelopeAgree s (o.withWire s) :=
  ⟨rfl, rfl, rfl, rfl, rfl, rfl, rfl, rfl, rfl, rfl, rfl, rfl⟩

theorem withWire_of_envelopeAgree {s t : State} (h : EnvelopeAgree s t) : t = t.withWire s := by
  obtain ⟨h1, h2, h3, h4, h5, h6, h7, h8, h9, h10, h11, h12⟩ := h
  cases s; cases t
  simp_all [State.withWire]

/-- What is blind to the DAC side keeps the agreement. -/
theorem Blind.envelopeAgree {g : State → State} (hg : Blind g) {s t : State} (h : EnvelopeAgree s t) :
    EnvelopeAgree (g s) (g t) := by
  rw [withWire_of_envelopeAgree h, hg (unseen_withWire t)]
  exact envelopeAgree_withWire t (g s)

theorem envelopeAgree_dacWrite {s t : State} (h : EnvelopeAgree s t) (c d : Channel) (x y : Int) :
    EnvelopeAgree (dacWrite c x s) (dacWrite d y t) := by
  obtain ⟨h1, h2, h3, h4, h5, h6, h7, h8, h9, h10, h11, h12⟩ := h
  constructor <;> simpa

theorem envelopeAgree_encodeCache {s t : State} (h : EnvelopeAgree s t) (c : Channel) (x : Int) :
    EnvelopeAgree (encodeCache s c x) (encodeCache t c x) := by
  obtain ⟨h1, h2, h3, h4, h5, h6, h7, h8, h9, h10, h11, h12⟩ := h
  constructor <;> simpa

theorem envelopeAgree_transmit {s t : State} (h : EnvelopeAgree s t) (k : Chip) (w : FrameWord) :
    EnvelopeAgree (transmit k w s) (transmit k w t) := by
  obtain ⟨h1, h2, h3, h4, h5, h6, h7, h8, h9, h10, h11, h12⟩ := h
  constructor <;> simpa

theorem envelopeAgree_returning {s t : State} (h : EnvelopeAgree s t) (r q : Result) :
    EnvelopeAgree (s.returning r) (t.returning q) := { h with }

/-- Settles O52: the same operation runs in both states or is refused in both, and each of its parts keeps the
agreement. -/
theorem envelopeIgnoresTheWire : Obligations.EnvelopeIgnoresTheWire := by
  intro i s1 s2 t1 t2 h h1 h2
  have hmeaning : HasMeaning s1 i ↔ HasMeaning s2 i := by rw [HasMeaning, HasMeaning, h.par]
  cases ran_of_exec h1 with
  | refused hno =>
    obtain ⟨-, r, rfl, -⟩ | ⟨hyes, -⟩ := refused_or_hasMeaning (ran_of_exec h2)
    · exact { h with }
    · exact absurd (hmeaning.mpr hyes) hno
  | clkReset => cases h2; exact envelopeAgree_returning (blind_clockReset.envelopeAgree h) _ _
  | clkElapsed => cases h2; exact envelopeAgree_returning (blind_afterElapsed.envelopeAgree h) _ _
  | gateOn => cases h2; exact envelopeAgree_returning (blind_gateOn.envelopeAgree h) _ _
  | gateOff => cases h2; exact envelopeAgree_returning (blind_gateOff.envelopeAgree h) _ _
  | advance => cases h2; exact envelopeAgree_returning (blind_advance.envelopeAgree h) _ _
  | dacEncode hc x =>
    rw [exec_dacEncode_of_lt (h.par ▸ hc)] at h2
    cases h2; exact envelopeAgree_returning (envelopeAgree_encodeCache h _ x) _ _
  | dacTransmit k w => cases h2; exact envelopeAgree_returning (envelopeAgree_transmit h k w) _ _
  | dacWrite hc x =>
    rw [exec_dacWrite_of_lt (h.par ▸ hc)] at h2
    cases h2; exact envelopeAgree_returning (envelopeAgree_dacWrite h _ _ x x) _ _
  | @tick g gate hg hc =>
    rw [exec_tick_of_some hg (h.par ▸ hc)] at h2
    cases h2
    have hadvanced := blind_advance.envelopeAgree ((blind_applyGate gate).envelopeAgree h)
    exact envelopeAgree_returning (envelopeAgree_dacWrite hadvanced _ _ _ _) _ _
  | setRate hg r =>
    rw [exec_setRate_of_some hg] at h2
    cases h2; exact { h with rate := congrArg (perStageSet · _ r) h.rate }
  | setStep hg p =>
    rw [exec_setStep_of_some hg] at h2
    cases h2; exact { h with step := congrArg (perStageSet · _ p) h.step }
  | readEnv => cases h2; exact envelopeAgree_returning h _ _

end Sys2Proof.Machine
end
